-- ==== Sys2Proof/Word.lean ====
section
/-! DEFINITION. The widths of the LK4420's quantities, under the names the manual gives them. -/

namespace Sys2Proof

/-- A byte of a lane, of a cue-line frame or of the store link (R184). -/
abbrev Byte := BitVec 8

/-- A station number, 0 to 31 (R171). -/
abbrev Station := BitVec 5

/-- A feed id (section 11.2). -/
abbrev FeedId := BitVec 16

/-- A frame sequence number (R36). -/
abbrev Seq := BitVec 16

/-- A house count (R9). -/
abbrev HouseCount := BitVec 32

/-- A clip id (R66). -/
abbrev ClipId := BitVec 32

/-- A segment number within its clip (R66). -/
abbrev SegNumber := BitVec 16

/-- A channel, which is also the number of its feed port (FP0 to FP3). -/
abbrev Port := Fin 4

/-- An index of the segment table (R77). -/
abbrev RecIx := Fin 64

/-- A store tag (R140). -/
abbrev TagIx := Fin 16

end Sys2Proof
end

