-- ==== Sys2Proof/Config.lean ====
section
/-! DEFINITION. What an LK4420 is configured with: the parameters of one channel, and the configuration in force (R172).
The model needs no free value: what the manual leaves open is an operand of a command (a coded frame, the order of work
inside a tick), the order of the queue, or a choice that a log entry names. -/

namespace Sys2Proof

/-- The thirteen parameters that ARM may override for one channel (R58). -/
structure ChannelParams where
  /-- segment length L -/
  segLen : Nat
  /-- window depth w -/
  w : Nat
  /-- lead p -/
  p : Nat
  /-- gap hold g -/
  g : Nat
  /-- frame waiting interval -/
  fwt : Nat
  /-- hold-over limit k -/
  k : Nat
  twin : Bool
  gating : Bool
  /-- selection ratio n/d -/
  n : Nat
  d : Nat
  /-- browse target T, in bytes -/
  target : Nat
  /-- browse bucket B, in bytes -/
  bucket : Nat
  qMin : Nat
  qMax : Nat
  deriving DecidableEq, Repr

/-- Spatial reduction of browse frames, per axis (R172). -/
inductive Spatial where
  | half
  | quarter
  | eighth
  deriving DecidableEq, Repr

/-- The configuration in force (the table of R172). -/
structure Configuration where
  params : ChannelParams
  /-- drain limit, in ticks -/
  drain : Nat
  /-- report window rw, in ticks -/
  rw : Nat
  /-- commit wait cw, in ticks -/
  cw : Nat
  /-- store waiting interval swt, in ticks -/
  swt : Nat
  /-- low mark, in pages -/
  lowMark : Nat
  spatial : Spatial
  classSwap : Bool
  /-- cue-line bit time, in periods of the line clock -/
  divisor : Nat
  /-- tally polarity: true is active-low -/
  activeLow : Bool
  /-- notice enable mask: bit i - 1 enables the cause coded i (section 11.6) -/
  mask : BitVec 12
  deriving DecidableEq, Repr

end Sys2Proof
end

