-- ==== Sys2Proof/Syntax.lean ====
section
/-! DEFINITION. The commands of the LK4420: one constructor of `Instr` for each row of spec/opcode_table.json, with the
operands its event carries. The table gives no row an operand, so the operands are read from the rules, and where those
leave a choice the log says which (log 5, 6, 7, 15, 16, 17, 20, 21, 31). -/

namespace Sys2Proof

/-- The target of a cue-line message, from its target type and target value (section 11.3; R165). -/
inductive Target where
  | station (value : BitVec 16)
  | feed (id : FeedId)
  | all
  /-- a target type that is none of the three: it matches no target -/
  | other
  deriving DecidableEq, Repr

/-- A message received whole from the cue line: the sender of its arbitration field, its target and its payload (R157). -/
structure Heard where
  sender : Station
  target : Target
  payload : List Byte
  deriving DecidableEq, Repr

/-- A STORED received whole (R133). -/
structure HeardStored where
  heard : Heard
  /-- it falls together with the event taken just before it, and is taken before the issue that this event allows (R125,
  R128, R134; log 20) -/
  together : Bool
  deriving DecidableEq, Repr

/-- Bytes of a lane up to the last one of a header or of a frame. -/
structure LaneBytes where
  bytes : List Byte
  /-- the last byte falls together with an expiry of the port's frame waiting timer that was taken just before it (R22, R26;
  log 31) -/
  together : Bool
  deriving DecidableEq, Repr

/-- A part of the work of a house tick, or an event that falls together with the tick and is taken inside it. -/
inductive TickPart where
  /-- a channel samples its presence input (R23) -/
  | presence (c : Port)
  /-- a channel counts hold-over, handles a boundary and releases its placement (R13, R44, R70) -/
  | placement (c : Port)
  /-- a channel advances its tally phase (R32) -/
  | tally (c : Port)
  /-- a frame waiting timer expires at this tick (R26) -/
  | waiting (c : Port)
  /-- the last byte of a header or frame arrives together with the tick and an expiry taken before it (R26, R48) -/
  | lane (c : Port) (byte : Byte)
  /-- a drain timer expires at this tick (R113) -/
  | drain (record : RecIx)
  /-- a report window expires at this tick (R125) -/
  | window (record : RecIx)
  /-- a commit timer expires at this tick (R131) -/
  | commit (record : RecIx)
  /-- a store waiting timer expires at this tick (R148) -/
  | store (tag : TagIx)
  /-- the clear timer expires at this tick (R152) -/
  | clear
  deriving DecidableEq, Repr

/-- What comes with a house tick besides the tick itself: the levels of the presence inputs sampled at it (R23; bit c is
channel c), and the order of its parts, which R13 leaves open (log 5). Presence, placement and tally of a channel that are
not named follow in ascending order; an expiry that is not named is left to its own command. -/
structure TickInput where
  presence : BitVec 4
  order : List TickPart
  deriving DecidableEq, Repr

/-- The commands, one for each row of spec/opcode_table.json. -/
inductive Instr where
  /-- R14: assertion of RESET -/
  | powerOnReset
  /-- R171: release of RESET, with the levels of the five station straps -/
  | resetRelease (straps : Station)
  /-- R172: the configuration memory has answered, with the bytes read from its first byte on -/
  | configurationReadComplete (image : List Byte)
  /-- R172: the image has not been read within 27,000,000 line clock periods -/
  | configurationReadTimeout
  /-- R1: a rising edge of the reference input, at an instant of the internal timebase (microseconds) -/
  | referencePulse (time : Nat) (tick : TickInput)
  /-- R6: the loss deadline passes, at an instant of the timebase -/
  | lossDeadlineExpiry (time : Nat) (tick : TickInput)
  /-- R7: the flywheel schedule makes a tick, at an instant of the timebase -/
  | flywheelTick (time : Nat) (tick : TickInput)
  /-- R10 -/
  | preset (m : Heard)
  /-- R17: lane bytes of which the last is the sixteenth header byte -/
  | headerJudged (port : Port) (bytes : LaneBytes)
  /-- R18: lane bytes of which the last is the last payload check byte -/
  | frameComplete (port : Port) (bytes : LaneBytes)
  /-- R26 -/
  | frameWaitingTimerExpiry (port : Port)
  /-- R59 -/
  | arm (m : Heard)
  /-- R60 -/
  | disarm (m : Heard)
  /-- R61 -/
  | cue (m : Heard)
  /-- R68 -/
  | stop (m : Heard)
  /-- R69 -/
  | cut (m : Heard)
  /-- R73 -/
  | resetChannel (m : Heard)
  /-- R71; a tick settles its own hold-over expiry (R70), so no run leaves one for this command (log 4) -/
  | holdOverExpiry (port : Port)
  /-- R111: the coder ends its job, with the coded bytes; their number is the coded size S -/
  | coderCompletion (coded : List Byte)
  /-- R113 -/
  | drainTimerExpiry (record : RecIx)
  /-- R121 -/
  | reportHeard (m : Heard)
  /-- R125 -/
  | reportWindowExpiry (record : RecIx)
  /-- R133 -/
  | storedHeard (m : HeardStored)
  /-- R129 -/
  | unstoredHeard (m : Heard)
  /-- R130 -/
  | takeoverHeard (m : Heard)
  /-- R131 -/
  | commitTimerExpiry (record : RecIx)
  /-- R143: the tag and status bytes of an acknowledgement -/
  | acknowledgement (tag : Byte) (status : Byte)
  /-- R148 -/
  | storeWaitingTimerExpiry (tag : TagIx)
  /-- R149: an assertion edge of the STORE-HALT input -/
  | storeHaltAssert
  /-- R149: a release edge of the STORE-HALT input -/
  | storeHaltRelease
  /-- R150 -/
  | resumeStore (m : Heard)
  /-- R151 -/
  | resetStore (m : Heard)
  /-- R152 -/
  | cleared
  /-- R152 -/
  | clearTimerExpiry
  /-- R186: a store link message of another type, with its type byte -/
  | storeLinkOtherType (kind : Byte)
  /-- R168: the line has been recessive for `gap` more bit times (log 15, log 30) -/
  | lineIdleSend (gap : Nat)
  /-- R160 -/
  | lostArbitration
  /-- R161 -/
  | clash
  /-- R162 -/
  | messageSent
  /-- R163: a dominant run passes 64 bit times; `inArbitration` tells, for a message being sent, whether the bit that was
  sent recessive and read dominant lay in the arbitration field -/
  | lineStuck (inArbitration : Bool)
  /-- R164: after `gap` recessive bit times a frame passes on the line, its bits from the start bit on (true is
  recessive), up to the moment at which it is settled or further where it is heard; or, while the line is not idle, any bits
  from a dominant one on (log 15) -/
  | cueLineFrame (gap : Nat) (bits : List Bool)
  /-- R177 -/
  | unknownKind (kind : Byte) (m : Heard)
  /-- R179 -/
  | query (m : Heard)
  /-- R16: lane bytes of which the last completes the sync marker -/
  | syncMarkerFound (port : Port) (bytes : List Byte)
  deriving DecidableEq, Repr

end Sys2Proof
end

