-- ==== Sys2Proof/Decode.lean ====
section
/-! DEFINITION. The reading of command words. No row of spec/opcode_table.json gives any bits (each is an event, not a
word), so no word spells a command. -/

namespace Sys2Proof

/-- The command a word spells by the table's bits: none, for the table gives no row any bits. -/
def decodeTableWord (_nbits _w : Nat) : Option Instr := none

end Sys2Proof
end

