-- ==== Sys2Proof/Machine/Bytes.lean ====
section
/-! DEFINITION. Byte order, the two checks of R184, and saturating counters (R182). -/

namespace Sys2Proof.Machine

/-- The low 16 bits of a number, most significant byte first (chapter 11). -/
def be16 (n : Nat) : List Byte := [BitVec.ofNat 8 (n / 256), BitVec.ofNat 8 n]

/-- The low 24 bits of a number, most significant byte first. -/
def be24 (n : Nat) : List Byte := BitVec.ofNat 8 (n / 65536) :: be16 n

/-- The low 32 bits of a number, most significant byte first. -/
def be32 (n : Nat) : List Byte := be16 (n / 65536) ++ be16 n

/-- The number that bytes stand for, most significant byte first. -/
def fromBE (bytes : List Byte) : Nat := bytes.foldl (fun acc b => acc * 256 + b.toNat) 0

/-- The field of `size` bytes at `offset` of a structure (the layout tables of chapter 11). -/
def field (bytes : List Byte) (offset size : Nat) : Nat := fromBE ((bytes.drop offset).take size)

/-- A byte of flags: bit 0 first. -/
def flagByte (b0 b1 b2 b3 b4 b5 : Bool) : Byte :=
  BitVec.ofNat 8 (b0.toNat + 2 * b1.toNat + 4 * b2.toNat + 8 * b3.toNat + 16 * b4.toNat + 32 * b5.toNat)

/-- One bit of the CRC-16 register, polynomial 1021H, most significant bit first (R184). -/
def crc16Bit (c : BitVec 16) : BitVec 16 := if c.msb then (c <<< 1) ^^^ 0x1021#16 else c <<< 1

/-- One byte of the CRC-16. -/
def crc16Byte (c : BitVec 16) (b : Byte) : BitVec 16 := Nat.repeat crc16Bit 8 (c ^^^ (b.setWidth 16 <<< 8))

/-- CRC-16 of R184: register preset to all ones, no final inversion. -/
def crc16 (bytes : List Byte) : Nat := (bytes.foldl crc16Byte 0xFFFF#16).toNat

/-- One bit of the CRC-32 register, polynomial 04C11DB7H reflected (R184). -/
def crc32Bit (c : BitVec 32) : BitVec 32 :=
  if c.getLsbD 0 then (c >>> 1) ^^^ 0xEDB88320#32 else c >>> 1

/-- One byte of the CRC-32. -/
def crc32Byte (c : BitVec 32) (b : Byte) : BitVec 32 := Nat.repeat crc32Bit 8 (c ^^^ b.setWidth 32)

/-- CRC-32 of R184: register preset to all ones, reflected, inverted at the end. -/
def crc32 (bytes : List Byte) : Nat := (~~~(bytes.foldl crc32Byte 0xFFFFFFFF#32)).toNat

/-- A 16-bit counter raised by `k`, saturating at 65535 (R52, R182). -/
def satAdd (n k : Nat) : Nat := min 65535 (n + k)

/-- A 16-bit counter raised by 1, saturating at 65535 (R182). -/
def satInc (n : Nat) : Nat := satAdd n 1

/-- `x` brought into the range `lo` to `hi` (R58). -/
def clamp (lo hi x : Nat) : Nat := max lo (min hi x)

end Sys2Proof.Machine
end

