-- ==== Sys2Proof/Machine/Defaults.lean ====
section
/-! DEFINITION. The built-in default configuration (the second column of the table of R172). -/

namespace Sys2Proof.Machine

/-- The built-in defaults, in force after a bad configuration image (R172). -/
def builtInConfiguration : Configuration :=
  { params :=
      { segLen := 100, w := 4, p := 2, g := 1, fwt := 5, k := 50, twin := false, gating := false,
        n := 1, d := 2, target := 10000, bucket := 60000, qMin := 4, qMax := 28 },
    drain := 10, rw := 8, cw := 100, swt := 25, lowMark := 1024, spatial := .quarter,
    classSwap := false, divisor := 108, activeLow := false, mask := 0xFFF#12 }

end Sys2Proof.Machine
end

