-- ==== Sys2Proof/Machine/State.lean ====
section
/-! DEFINITION. The state of an LK4420: every piece of state that spec/ names, as plain data, block by block, and the
state under an asserted RESET. Counts and sizes are `Nat`; what the manual shifts, wraps or sends as a word is a bit
vector. -/

namespace Sys2Proof.Machine

/-- A timer in house ticks: none is stopped, `some n` is running with n ticks left, `some 0` is one that has counted its
last tick and whose expiry is due (R12; log 3). -/
abbrev Timer := Option Nat

/-! ### Reference Unit (section 1.1) -/

/-- Reference state. -/
inductive RefState where
  | waiting
  | locking
  | locked
  | flywheel
  deriving DecidableEq, Repr

/-- State of the Reference Unit (section 1.1). -/
structure RefUnit where
  st : RefState
  /-- current capture, in microseconds -/
  cur : Nat
  /-- previous capture, in microseconds -/
  prev : Nat
  /-- measurement start, an instant of the timebase -/
  measStart : Option Nat
  /-- last tick, an instant of the timebase -/
  lastTick : Option Nat
  /-- loss deadline: stopped, or the instant it runs to, in HALF microseconds (1.5 captures may be half-way; log 6) -/
  deadline : Option Nat
  /-- the flywheel schedule runs -/
  flywheel : Bool
  count : HouseCount
  /-- pending preset -/
  preset : Option HouseCount
  /-- REF LOST latch -/
  lostLatch : Bool
  deriving DecidableEq, Repr

/-! ### Feed port (section 2.1) -/

/-- Source timecode, kept as received (R17). -/
structure Timecode where
  hours : Byte
  minutes : Byte
  seconds : Byte
  frames : Byte
  deriving DecidableEq, Repr

/-- The header fields kept with a frame under assembly (R17). -/
structure Header where
  feedId : FeedId
  seq : Seq
  timecode : Timecode
  /-- payload length -/
  length : Nat
  key : Bool
  ends : Bool
  deriving DecidableEq, Repr

/-- Receiver state with the frame under assembly (section 2.3). -/
inductive Receiver where
  /-- HUNT, with the bytes (at most three) that the next comparison will use (R16) -/
  | hunt (seen : List Byte)
  /-- HEADER, with the header bytes collected -/
  | header (got : List Byte)
  /-- PAYLOAD, with the good header and the payload and check bytes collected -/
  | payload (h : Header) (got : List Byte)
  deriving DecidableEq, Repr

/-- Reason of a loss (R27). -/
inductive LossReason where
  | silent
  | carrier
  | ended
  deriving DecidableEq, Repr

/-- Feed condition (section 2.8). -/
inductive FeedCondition where
  | live
  | lost (reason : LossReason)
  deriving DecidableEq, Repr

/-- Tally state (R31). -/
inductive TallyState where
  | off
  | ready
  | on
  | alert
  deriving DecidableEq, Repr

/-- State of one feed port (section 2.1). -/
structure FeedPort where
  opened : Bool
  rx : Receiver
  /-- the receiver as the last expiry of the frame waiting timer found it, for a last byte that falls together with that
  expiry (the model's own field, log 31); HUNT with no byte where there is none -/
  interrupted : Receiver
  feedId : Option FeedId
  gating : Bool
  fwt : Nat
  waitTimer : Timer
  consecBad : Nat
  rawPresence : Bool
  debPresence : Bool
  presenceRun : Nat
  feed : FeedCondition
  firstSinceArm : Bool
  faultMark : Bool
  tally : TallyState
  tallyPhase : Nat
  /-- level of the tally output pin -/
  tallyOut : Bool
  accepted : Nat
  corrupt : Nat
  foreign : Nat
  deriving DecidableEq, Repr

/-! ### Frame synchroniser (section 3.1) -/

/-- A frame record (R20). The payload it refers to in the receive buffer stands in the record itself (log 8). -/
structure FrameRecord where
  seq : Seq
  timecode : Timecode
  key : Bool
  payload : List Byte
  deriving DecidableEq, Repr

/-- Synchroniser state. -/
inductive SyncState where
  | seeking
  | preroll
  | running
  deriving DecidableEq, Repr

/-- State of one frame synchroniser (section 3.1). -/
structure Synchroniser where
  st : SyncState
  /-- next expected sequence number E -/
  e : Seq
  /-- reorder window, in order of position -/
  window : List FrameRecord
  w : Nat
  p : Nat
  g : Nat
  /-- gap count -/
  h : Nat
  repeatMark : Bool
  late : Nat
  duplicate : Nat
  discontinuities : Nat
  deriving DecidableEq, Repr

/-! ### Take controller (section 4.1) -/

/-- Channel state (R56). -/
inductive ChannelState where
  | idle
  | armed
  | recording
  | ending
  deriving DecidableEq, Repr

/-- A cue: length 0 is an open cue (section 4.1). -/
structure Cue where
  clip : ClipId
  length : Nat
  tie : Bool
  pause : Bool
  deriving DecidableEq, Repr

/-- State of one take controller (section 4.1), with the channel's overruns counter (R86). -/
structure TakeController where
  st : ChannelState
  buffer : Option Cue
  active : Option Cue
  cueEmpty : Bool
  clip : ClipId
  nextSeg : SegNumber
  remaining : Nat
  holdOver : Nat
  /-- segment length L -/
  segLen : Nat
  /-- hold-over limit k -/
  k : Nat
  twin : Bool
  overruns : Nat
  deriving DecidableEq, Repr

/-! ### Browse selector (section 6.1) -/

/-- State of one channel's selector and budget (section 6.1). -/
structure Selector where
  n : Nat
  d : Nat
  target : Nat
  bucket : Nat
  qMin : Nat
  qMax : Nat
  /-- accumulator -/
  a : Nat
  /-- fullness F -/
  fullness : Nat
  /-- browse skip counter -/
  skips : Nat
  deriving DecidableEq, Repr

/-- One channel: its port, synchroniser, take controller and selector. -/
structure Channel where
  port : FeedPort
  sync : Synchroniser
  take : TakeController
  sel : Selector
  deriving DecidableEq, Repr

/-! ### Segment table and page pool (sections 5.1 to 5.3) -/

/-- The key of a segment (R66). -/
structure Key where
  feed : FeedId
  clip : ClipId
  seg : SegNumber
  first : HouseCount
  deriving DecidableEq, Repr

/-- States of a segment record (R77). -/
inductive RecState where
  | free
  | opened
  | closing
  | deciding
  | held
  | queued
  | writing
  | indexing
  deriving DecidableEq, Repr

/-- Kinds of placement (R44). -/
inductive PlacementKind where
  | present
  | repeated
  | fill
  deriving DecidableEq, Repr

/-- An entry of a placement map (R87). -/
structure MapEntry where
  kind : PlacementKind
  key : Bool
  deriving DecidableEq, Repr

/-- The seven counts of a record (R52). -/
structure Counts where
  placements : Nat
  present : Nat
  repeats : Nat
  fills : Nat
  drops : Nat
  skipped : Nat
  late : Nat
  deriving DecidableEq, Repr

/-- A browse entry (section 6.1). -/
inductive BrowseEntry where
  | size (s : Nat)
  | hold
  | skip
  | reserved
  deriving DecidableEq, Repr

/-- An entry of a peer list (R122). -/
structure Peer where
  station : Station
  damage : Nat
  deriving DecidableEq, Repr

/-- The part of a segment that a store request carries (R141). -/
inductive Part where
  | essence
  | browse
  | index
  deriving DecidableEq, Repr

/-- A request's place in its segment: the part and the page index, 0 for INDEX (R141). -/
structure PageRef where
  part : Part
  page : Nat
  deriving DecidableEq, Repr

/-- Marks of store progress; a place with no mark has not been issued (section 8.1). -/
inductive Mark where
  | issued
  | acknowledged
  | unwritten
  deriving DecidableEq, Repr

/-- Store progress of a record: the marks of the places issued so far, and the failed mark (section 8.1). -/
structure Progress where
  marks : List (PageRef × Mark)
  failed : Bool
  deriving DecidableEq, Repr

/-- A segment record (section 5.2). In a FREE record the channel, the key, L and twin mode hold no value: the zeros there
are placeholders that nothing reads (R78; log 22). -/
structure Record where
  st : RecState
  channel : Port
  key : Key
  segLen : Nat
  twin : Bool
  counts : Counts
  damage : Nat
  map : List MapEntry
  /-- frame size list -/
  sizes : List Nat
  timecode : Option Timecode
  essPages : List Nat
  essBytes : Nat
  brwPages : List Nat
  entries : List BrowseEntry
  brwBytes : Nat
  short : Bool
  torn : Bool
  storedElsewhere : Bool
  takenOver : Bool
  /-- pending browse jobs -/
  pendingJobs : Nat
  drainTimer : Timer
  peers : List Peer
  ahead : List Station
  windowTimer : Timer
  commitTimer : Timer
  decisionTime : Option HouseCount
  progress : Progress
  deriving DecidableEq, Repr

/-- The segment table and the free list (sections 5.1 and 5.3). -/
structure Pool where
  records : Vector Record 64
  /-- free list: head first -/
  free : List Nat
  evictions : Nat
  deriving DecidableEq, Repr

/-- Bytes of staging memory that are not 0, by address: addresses strictly rising (section 5.3; log 9). -/
abbrev Memory := List Host.Cell

/-! ### Browse Unit (section 6.1) -/

/-- A job (section 6.1). -/
structure Job where
  channel : Port
  record : RecIx
  /-- position in the record's browse entry list -/
  entry : Nat
  /-- frame reference: offset and length in the record's essence -/
  offset : Nat
  length : Nat
  withdrawn : Bool
  deriving DecidableEq, Repr

/-- Coder state; a job in progress has its quantiser fixed at its start (R106). -/
inductive Coder where
  | idle
  | coding (quantiser : Nat)
  deriving DecidableEq, Repr

/-- The shared part of the Browse Unit. -/
structure BrowseUnit where
  jobs : List Job
  coder : Coder
  deriving DecidableEq, Repr

/-- The counters of the Copy Arbitration Unit (R136). -/
structure Arbitration where
  lateReport : Nat
  unmatched : Nat
  takeovers : Nat
  deriving DecidableEq, Repr

/-! ### Store Link Controller (section 8.1) -/

/-- The request a tag was given to (section 8.1). -/
structure TagRequest where
  record : RecIx
  ref : PageRef
  deriving DecidableEq, Repr

/-- State of a tag. -/
inductive TagState where
  | free
  | outstanding (r : TagRequest) (timer : Timer)
  | quarantined (r : TagRequest)
  deriving DecidableEq, Repr

/-- Link state (section 8.7). -/
inductive LinkState where
  | ready
  | clearing
  | failed
  deriving DecidableEq, Repr

/-- State of the Store Link Controller (section 8.1). -/
structure StoreLink where
  /-- write queue: head first -/
  queue : List RecIx
  tags : Vector TagState 16
  /-- enable latch -/
  latch : Bool
  st : LinkState
  clearTimer : Timer
  /-- STORE HALTED latch -/
  haltedLatch : Bool
  /-- LINK FAILED latch -/
  failedLatch : Bool
  stored : Nat
  fault : Nat
  stray : Nat
  deriving DecidableEq, Repr

/-- A message sent on the store link (section 11.4). -/
inductive StoreMessage where
  /-- a request: the fields of R141 -/
  | request (tag : TagIx) (key : Key) (ref : PageRef) (last : Bool) (data : List Byte)
  | clear
  deriving DecidableEq, Repr

/-! ### Messages of the engine on the cue line -/

/-- Reply codes (R176). -/
inductive ReplyCode where
  | done
  | busy
  | notArmed
  | conflict
  | badField
  | badPort
  | halted
  | unknown
  deriving DecidableEq, Repr

/-- Notice causes (R178). -/
inductive Cause where
  | start
  | takeStart
  | cueEmpty
  | takeEnd
  | feedLost
  | feedBack
  | feedFault
  | overrun
  | evicted
  | storeHalted
  | refLost
  | refBack
  deriving DecidableEq, Repr

/-- Why a take ended (R75). -/
inductive EndReason where
  | normal
  | stop
  | cut
  | loss
  | fault
  deriving DecidableEq, Repr

/-- Where the configuration in force comes from (R180). -/
inductive Source where
  | loaded
  | defaulted
  deriving DecidableEq, Repr

/-- The first three groups of an engine STATUS (R180). -/
structure EngineStatus where
  station : Option Station
  source : Option Source
  refLost : Bool
  storeHalted : Bool
  configDefaulted : Bool
  txDropped : Bool
  lineStuck : Bool
  linkFailed : Bool
  refState : RefState
  cur : Nat
  prev : Nat
  count : HouseCount
  latch : Bool
  freePages : Nat
  freeRecords : Nat
  deriving DecidableEq, Repr

/-- The nine engine counters (R180). -/
structure EngineCounters where
  stored : Nat
  fault : Nat
  stray : Nat
  clash : Nat
  rxBad : Nat
  lateReport : Nat
  unmatched : Nat
  takeovers : Nat
  evictions : Nat
  deriving DecidableEq, Repr

/-- A channel STATUS (R181). -/
structure ChannelStatus where
  channel : Port
  st : ChannelState
  feedId : Option FeedId
  bufferFull : Bool
  cueEmpty : Bool
  feed : FeedCondition
  debPresence : Bool
  faultMark : Bool
  consecBad : Nat
  sync : SyncState
  accepted : Nat
  corrupt : Nat
  foreign : Nat
  late : Nat
  duplicate : Nat
  discontinuities : Nat
  skips : Nat
  overruns : Nat
  deriving DecidableEq, Repr

/-- A message that the engine sends on the cue line (R166). -/
inductive Message where
  | report (key : Key) (placements damage : Nat) (short torn : Bool)
  | stored (key : Key)
  | unstored (key : Key)
  | takeover (key : Key)
  | reply (dest : Station) (code : ReplyCode) (adjusted : Bool) (channel kind : Byte)
  | engineStatus (dest : Station) (v : EngineStatus)
  | engineCounters (dest : Station) (v : EngineCounters)
  | channelStatus (dest : Station) (v : ChannelStatus)
  | notice (cause : Cause) (reason channel : Byte) (count : HouseCount)
  deriving DecidableEq, Repr

/-! ### Cue Line Interface (chapter 9) -/

/-- An entry of the transmit queue (R166). -/
structure TxEntry where
  msg : Message
  cls : Nat
  age : Nat
  deriving DecidableEq, Repr

/-- What the interface is doing on the line (R159, R160, R168). -/
inductive Activity where
  /-- not in a frame, with the recessive bit times counted, up to the 11 of idle -/
  | waiting (recessive : Nat)
  /-- it lost arbitration and goes on as a receiver of the winning frame -/
  | receiving
  /-- the message of age `onLine` is on the line -/
  | sending
  deriving DecidableEq, Repr

/-- State of the Cue Line Interface (R170). -/
structure CueLine where
  enabled : Bool
  activity : Activity
  queue : List TxEntry
  /-- the age of the message on the line -/
  onLine : Option Nat
  nextAge : Nat
  /-- LINE STUCK latch -/
  stuckLatch : Bool
  /-- TX DROPPED latch -/
  droppedLatch : Bool
  clash : Nat
  rxBad : Nat
  deriving DecidableEq, Repr

/-! ### Status and Configuration (chapter 10) -/

/-- Where the engine stands between an assertion of RESET and the end of start-up (R171, R174). -/
inductive Phase where
  | inReset
  | startingUp
  | running
  deriving DecidableEq, Repr

/-- State of the Status and Configuration block (R183). -/
structure StatusBlock where
  phase : Phase
  station : Option Station
  /-- the configuration in force; while `source` is none, none is in force and nothing reads it (log 12) -/
  cfg : Configuration
  source : Option Source
  /-- CONFIG DEFAULTED latch -/
  defaultedLatch : Bool
  deriving DecidableEq, Repr

/-! ### The whole engine -/

/-- The LK4420. -/
structure State where
  ref : RefUnit
  chans : Vector Channel 4
  pool : Pool
  mem : Memory
  browse : BrowseUnit
  arb : Arbitration
  link : StoreLink
  cue : CueLine
  status : StatusBlock
  /-- level of the STORE-HALT input: true is asserted -/
  storeHalt : Bool
  /-- the model's own record of what has left on the store link, oldest first (log 14) -/
  storeOut : List StoreMessage
  /-- the model's own record of the frames sent on the cue line, oldest first (log 14) -/
  lineOut : List (List Bool)
  /-- commands waiting, first in, first out -/
  pending : List Instr
  deriving DecidableEq, Repr

/-- No step faults: the manual gives every event an effect or says that it is ignored. -/
inductive Fault where
  deriving DecidableEq, Repr

/-- Reasons to refuse a command. -/
inductive Refusal where
  /-- raised by an arm of `exec` whose command has no meaning yet; safe: a refused command lets nothing be proved -/
  | notModelled (mnemonic : String)
  deriving DecidableEq, Repr

/-! ### The state under an asserted RESET -/

/-- R14. -/
def RefUnit.reset : RefUnit :=
  { st := .waiting, cur := 0, prev := 0, measStart := none, lastTick := none, deadline := none,
    flywheel := false, count := 0#32, preset := none, lostLatch := false }

/-- R33; the parameters "once loaded" stand at the built-in defaults until start-up ends (log 12). -/
def FeedPort.reset (c : ChannelParams) : FeedPort :=
  { opened := false, rx := .hunt [], interrupted := .hunt [], feedId := none, gating := c.gating, fwt := c.fwt,
    waitTimer := none, consecBad := 0, rawPresence := false, debPresence := false, presenceRun := 0,
    feed := .lost .silent, firstSinceArm := false, faultMark := false, tally := .off, tallyPhase := 0,
    tallyOut := false, accepted := 0, corrupt := 0, foreign := 0 }

/-- R55. -/
def Synchroniser.reset (c : ChannelParams) : Synchroniser :=
  { st := .seeking, e := 0#16, window := [], w := c.w, p := c.p, g := c.g, h := 0, repeatMark := false,
    late := 0, duplicate := 0, discontinuities := 0 }

/-- R76, with the overruns counter of R98. -/
def TakeController.reset (c : ChannelParams) : TakeController :=
  { st := .idle, buffer := none, active := none, cueEmpty := false, clip := 0#32, nextSeg := 0#16,
    remaining := 0, holdOver := 0, segLen := c.segLen, k := c.k, twin := c.twin, overruns := 0 }

/-- R117. -/
def Selector.reset (c : ChannelParams) : Selector :=
  { n := c.n, d := c.d, target := c.target, bucket := c.bucket, qMin := c.qMin, qMax := c.qMax,
    a := 0, fullness := 0, skips := 0 }

/-- One channel after reset, with its parameters at `c`. -/
def Channel.reset (c : ChannelParams) : Channel :=
  { port := FeedPort.reset c, sync := Synchroniser.reset c, take := TakeController.reset c,
    sel := Selector.reset c }

/-- The seven counts at 0. -/
def Counts.zero : Counts :=
  { placements := 0, present := 0, repeats := 0, fills := 0, drops := 0, skipped := 0, late := 0 }

/-- A FREE record in its cleared form (R78). -/
def Record.cleared : Record :=
  { st := .free, channel := 0, key := { feed := 0#16, clip := 0#32, seg := 0#16, first := 0#32 },
    segLen := 0, twin := false, counts := Counts.zero, damage := 0, map := [], sizes := [],
    timecode := none, essPages := [], essBytes := 0, brwPages := [], entries := [], brwBytes := 0,
    short := false, torn := false, storedElsewhere := false, takenOver := false, pendingJobs := 0,
    drainTimer := none, peers := [], ahead := [], windowTimer := none, commitTimer := none,
    decisionTime := none, progress := { marks := [], failed := false } }

/-- R98: every record FREE, all 16,384 pages on the free list in ascending order. -/
def Pool.reset : Pool :=
  { records := Vector.replicate 64 Record.cleared, free := List.range' 0 16384, evictions := 0 }

/-- R155. -/
def StoreLink.reset : StoreLink :=
  { queue := [], tags := Vector.replicate 16 .free, latch := true, st := .ready, clearTimer := none,
    haltedLatch := false, failedLatch := false, stored := 0, fault := 0, stray := 0 }

/-- R170. -/
def CueLine.reset : CueLine :=
  { enabled := false, activity := .waiting 0, queue := [], onLine := none, nextAge := 0,
    stuckLatch := false, droppedLatch := false, clash := 0, rxBad := 0 }

/-- R183. -/
def StatusBlock.reset : StatusBlock :=
  { phase := .inReset, station := none, cfg := builtInConfiguration, source := none,
    defaultedLatch := false }

/-- The engine with RESET asserted (R14, R33, R55, R76, R98, R117, R138, R155, R170, R183), STORE-HALT inactive and
nothing sent or waiting (log 10, log 11, log 12, log 14). -/
def State.reset : State :=
  { ref := RefUnit.reset
    chans := Vector.replicate 4 (Channel.reset builtInConfiguration.params)
    pool := Pool.reset
    mem := []
    browse := { jobs := [], coder := .idle }
    arb := { lateReport := 0, unmatched := 0, takeovers := 0 }
    link := StoreLink.reset
    cue := CueLine.reset
    status := StatusBlock.reset
    storeHalt := false
    storeOut := []
    lineOut := []
    pending := [] }

end Sys2Proof.Machine
end

