-- ==== Sys2Proof/Machine/Formats.lean ====
section
/-! DEFINITION. What the engine sends, as bytes and bits: the codes and payloads of section 11.3, the frame of R157 with
its stuffing (R158), and the segment index record of section 11.5. -/

namespace Sys2Proof.Machine

/-- Reply codes (section 11.3). -/
def ReplyCode.byte : ReplyCode → Byte
  | .done => 0x00#8
  | .busy => 0x01#8
  | .notArmed => 0x02#8
  | .conflict => 0x03#8
  | .badField => 0x04#8
  | .badPort => 0x05#8
  | .halted => 0x06#8
  | .unknown => 0x07#8

/-- Notice causes are coded from 01H in the order of the table of R178. -/
def Cause.code : Cause → Nat
  | .start => 1
  | .takeStart => 2
  | .cueEmpty => 3
  | .takeEnd => 4
  | .feedLost => 5
  | .feedBack => 6
  | .feedFault => 7
  | .overrun => 8
  | .evicted => 9
  | .storeHalted => 10
  | .refLost => 11
  | .refBack => 12

/-- Reasons of START (R178). -/
def Source.reason : Source → Byte
  | .loaded => 0x01#8
  | .defaulted => 0x02#8

/-- Reasons of TAKE END (R178). -/
def EndReason.byte : EndReason → Byte
  | .normal => 0x01#8
  | .stop => 0x02#8
  | .cut => 0x03#8
  | .loss => 0x04#8
  | .fault => 0x05#8

/-- Reasons of FEED LOST (R178). -/
def LossReason.byte : LossReason → Byte
  | .silent => 0x01#8
  | .carrier => 0x02#8
  | .ended => 0x03#8

/-- OVERRUN reason RECORDS (R178). -/
def reasonRecords : Byte := 0x01#8
/-- OVERRUN reason KEY (R178). -/
def reasonKey : Byte := 0x02#8
/-- STORE HALTED reason LINE (R178). -/
def reasonLine : Byte := 0x01#8
/-- STORE HALTED reason FULL (R178). -/
def reasonFull : Byte := 0x02#8

/-- The channel value of an engine notice, and of a REPLY that names no channel (R176, R178). -/
def engineChannel : Byte := 0xFF#8

/-- A channel number as a byte. -/
def portByte (c : Port) : Byte := BitVec.ofNat 8 c.val

/-- State codes in list order from 00H (section 11.3). -/
def RefState.byte : RefState → Byte
  | .waiting => 0x00#8
  | .locking => 0x01#8
  | .locked => 0x02#8
  | .flywheel => 0x03#8

/-- State codes in list order from 00H (section 11.3). -/
def ChannelState.byte : ChannelState → Byte
  | .idle => 0x00#8
  | .armed => 0x01#8
  | .recording => 0x02#8
  | .ending => 0x03#8

/-- State codes in list order from 00H (section 11.3). -/
def SyncState.byte : SyncState → Byte
  | .seeking => 0x00#8
  | .preroll => 0x01#8
  | .running => 0x02#8

/-- A Bool as a byte. -/
def boolByte (b : Bool) : Byte := if b then 0x01#8 else 0x00#8

/-- The 12 bytes of a key (section 11.3). -/
def keyBytes (k : Key) : List Byte :=
  be16 k.feed.toNat ++ be32 k.clip.toNat ++ be16 k.seg.toNat ++ be32 k.first.toNat

/-- Engine STATUS part 0, 19 bytes (section 11.3). Its enable latch byte is 01H for set and 00H for clear, which section 11.3
does not say (DESIGN CHOICE, unsafe, log 33). -/
def EngineStatus.bytes (v : EngineStatus) : List Byte :=
  [0x80#8, BitVec.ofNat 8 (v.station.elim 0 BitVec.toNat), boolByte (v.source = some .defaulted),
    flagByte v.refLost v.storeHalted v.configDefaulted v.txDropped v.lineStuck v.linkFailed, v.refState.byte] ++
    be24 v.cur ++ be24 v.prev ++ be32 v.count.toNat ++ [boolByte v.latch] ++ be16 v.freePages ++
    [BitVec.ofNat 8 v.freeRecords]

/-- Engine STATUS part 1, 19 bytes (section 11.3). -/
def EngineCounters.bytes (v : EngineCounters) : List Byte :=
  0x81#8 :: (be16 v.stored ++ be16 v.fault ++ be16 v.stray ++ be16 v.clash ++ be16 v.rxBad ++ be16 v.lateReport ++
    be16 v.unmatched ++ be16 v.takeovers ++ be16 v.evictions)

/-- The reason byte of a feed condition: the codes of FEED LOST, 00H while LIVE (section 11.3; log 19). -/
def FeedCondition.reasonByte : FeedCondition → Byte
  | .live => 0x00#8
  | .lost r => r.byte

/-- Channel STATUS, 26 bytes (section 11.3). -/
def ChannelStatus.bytes (v : ChannelStatus) : List Byte :=
  [portByte v.channel, v.st.byte] ++ be16 (v.feedId.elim 0 BitVec.toNat) ++
    [flagByte v.bufferFull v.cueEmpty false false false false, boolByte (v.feed ≠ .live), v.feed.reasonByte,
      flagByte v.debPresence v.faultMark false false false false, BitVec.ofNat 8 v.consecBad, v.sync.byte] ++
    be16 v.accepted ++ be16 v.corrupt ++ be16 v.foreign ++ be16 v.late ++ be16 v.duplicate ++
    be16 v.discontinuities ++ be16 v.skips ++ be16 v.overruns

/-- The kind byte of a message (section 11.3). -/
def Message.kind : Message → Byte
  | .report _ _ _ _ _ => 0x30#8
  | .stored _ => 0x31#8
  | .unstored _ => 0x32#8
  | .takeover _ => 0x33#8
  | .reply _ _ _ _ _ => 0x20#8
  | .engineStatus _ _ => 0x21#8
  | .engineCounters _ _ => 0x21#8
  | .channelStatus _ _ => 0x21#8
  | .notice _ _ _ _ => 0x22#8

/-- The target of a message (R166). -/
def Message.target : Message → Target
  | .report k _ _ _ _ => .feed k.feed
  | .stored k => .feed k.feed
  | .unstored k => .feed k.feed
  | .takeover k => .feed k.feed
  | .reply dest _ _ _ _ => .station (dest.setWidth 16)
  | .engineStatus dest _ => .station (dest.setWidth 16)
  | .engineCounters dest _ => .station (dest.setWidth 16)
  | .channelStatus dest _ => .station (dest.setWidth 16)
  | .notice _ _ _ _ => .all

/-- The payload of a message (section 11.3). -/
def Message.payload : Message → List Byte
  | .report k placements damage short torn =>
    keyBytes k ++ be16 placements ++ be16 damage ++ [flagByte short torn false false false false]
  | .stored k => keyBytes k
  | .unstored k => keyBytes k
  | .takeover k => keyBytes k
  | .reply _ code adjusted channel kind =>
    [code.byte, flagByte adjusted false false false false false, channel, kind]
  | .engineStatus _ v => v.bytes
  | .engineCounters _ v => v.bytes
  | .channelStatus _ v => v.bytes
  | .notice cause reason channel count =>
    [BitVec.ofNat 8 cause.code, reason, channel] ++ be32 count.toNat

/-- The target type and target value of a target; a target of no known type is never sent. -/
def Target.bytes : Target → List Byte
  | .station v => 0x01#8 :: be16 v.toNat
  | .feed f => 0x02#8 :: be16 f.toNat
  | .all => 0x03#8 :: be16 0
  | .other => 0x00#8 :: be16 0

/-- The fields of a frame from the arbitration byte to the last payload byte (R157). -/
def frameFields (cls : Nat) (station : Station) (kind : Byte) (target : Target) (payload : List Byte) : List Byte :=
  BitVec.ofNat 8 (cls * 32 + station.toNat) :: kind :: (Target.bytes target ++ BitVec.ofNat 8 payload.length :: payload)

/-- The bits of a byte, most significant first; 1 is recessive (R156). -/
def byteBits (b : Byte) : List Bool :=
  [b.getLsbD 7, b.getLsbD 6, b.getLsbD 5, b.getLsbD 4, b.getLsbD 3, b.getLsbD 2, b.getLsbD 1, b.getLsbD 0]

/-- Insert a bit of the other level after every run of six (R158), given the level and length of the run so far. -/
def stuff (bits : List Bool) (level : Bool) (run : Nat) : List Bool :=
  match bits with
  | [] => if run = 6 then [!level] else []
  | b :: rest =>
    if run = 6 then
      if b = !level then (!level) :: b :: stuff rest b 2 else (!level) :: b :: stuff rest b 1
    else b :: stuff rest b (if b = level then run + 1 else 1)

/-- The bits of a frame on the line (R157, R158): a dominant start bit, the fields and their check stuffed, and eight
recessive bits. -/
def frameBits (fields : List Byte) : List Bool :=
  false :: (stuff ((fields ++ be16 (crc16 fields)).flatMap byteBits) false 1 ++ List.replicate 8 true)

/-! ### Segment index record (section 11.5) -/

/-- The byte of a placement map entry. -/
def MapEntry.byte (e : MapEntry) : Byte :=
  let kind : Byte := match e.kind with
    | .present => 0x00#8
    | .repeated => 0x01#8
    | .fill => 0x02#8
  if e.key then kind ||| 0x80#8 else kind

/-- The four bytes of a browse entry; no entry of a record at issue is reserved (R116). -/
def BrowseEntry.bytes : BrowseEntry → List Byte
  | .size s => be32 s
  | .hold => be32 (1 * 1073741824)
  | .skip => be32 (2 * 1073741824)
  | .reserved => be32 (3 * 1073741824)

/-- The five bytes of the first source timecode and its presence flag. -/
def timecodeBytes (t : Option Timecode) : List Byte :=
  match t with
  | none => [0x00#8, 0x00#8, 0x00#8, 0x00#8, 0x00#8]
  | some t => [0x01#8, t.hours, t.minutes, t.seconds, t.frames]

/-- The index record of a segment record, composed at the issue of its INDEX request (R187). -/
def indexRecord (station : Station) (r : Record) : List Byte :=
  keyBytes r.key ++ [station.setWidth 8, flagByte r.short r.torn r.takenOver false false false] ++ be16 r.segLen ++
    be16 r.counts.placements ++ be16 r.counts.present ++ be16 r.counts.repeats ++ be16 r.counts.fills ++
    be16 r.counts.drops ++ be16 r.counts.skipped ++ be16 r.counts.late ++ be16 r.damage ++ timecodeBytes r.timecode ++
    be32 r.essBytes ++ be16 r.essPages.length ++ be32 r.brwBytes ++ [BitVec.ofNat 8 r.brwPages.length] ++
    be16 r.map.length ++ be16 r.sizes.length ++ be16 r.entries.length ++
    r.map.map MapEntry.byte ++ r.sizes.flatMap be32 ++ r.entries.flatMap BrowseEntry.bytes

end Sys2Proof.Machine
end

