-- ==== Sys2Proof/Machine/Ops.lean ====
section
/-! DEFINITION. Named operations over the state: access to channels, records and tags, timers, the transmit queue (R167),
notices (R178) and replies (R176). -/

namespace Sys2Proof.Machine

/-! ### Access -/

/-- Channel `c`. -/
def State.chan (s : State) (c : Port) : Channel := s.chans.get c

/-- Replace channel `c`. -/
def State.setChan (s : State) (c : Port) (x : Channel) : State := { s with chans := s.chans.set c x }

/-- Change the port of channel `c`. -/
def State.onPort (c : Port) (f : FeedPort → FeedPort) (s : State) : State :=
  s.setChan c { s.chan c with port := f (s.chan c).port }

/-- Change the synchroniser of channel `c`. -/
def State.onSync (c : Port) (f : Synchroniser → Synchroniser) (s : State) : State :=
  s.setChan c { s.chan c with sync := f (s.chan c).sync }

/-- Change the take controller of channel `c`. -/
def State.onTake (c : Port) (f : TakeController → TakeController) (s : State) : State :=
  s.setChan c { s.chan c with take := f (s.chan c).take }

/-- Change the browse selector of channel `c`. -/
def State.onSel (c : Port) (f : Selector → Selector) (s : State) : State :=
  s.setChan c { s.chan c with sel := f (s.chan c).sel }

/-- Segment record `i`. -/
def State.record (s : State) (i : RecIx) : Record := s.pool.records.get i

/-- Change segment record `i`. -/
def State.onRec (i : RecIx) (f : Record → Record) (s : State) : State :=
  { s with pool := { s.pool with records := s.pool.records.set i (f (s.record i)) } }

/-- Tag `t`. -/
def State.tag (s : State) (t : TagIx) : TagState := s.link.tags.get t

/-- Set tag `t`. -/
def State.setTag (t : TagIx) (x : TagState) (s : State) : State :=
  { s with link := { s.link with tags := s.link.tags.set t x } }

/-- The channels in ascending order. -/
def allPorts : List Port := [0, 1, 2, 3]

/-- The record indexes in ascending order. -/
def allRecs : List RecIx := List.finRange 64

/-- The tags in ascending order. -/
def allTags : List TagIx := List.finRange 16

/-- The channel that holds a feed id while not IDLE (R165). -/
def State.holder (s : State) (f : FeedId) : Option Port :=
  allPorts.find? fun c => (s.chan c).take.st != .idle && (s.chan c).port.feedId == some f

/-- The engine is running (R174). -/
def State.running (s : State) : Bool := s.status.phase == .running

/-- This station's number; it is known whenever the engine is running (R171). -/
def State.stationNumber (s : State) : Station := s.status.station.getD 0#5

/-! ### Timers (R12) -/

/-- A running timer counts one house tick; one whose expiry is due stays due. -/
def Timer.tick (t : Timer) : Timer := t.map Nat.pred

/-- The timer has counted its last tick: its expiry can be taken. One that is left for a later tick stays due and then reads the
count of that tick (DESIGN CHOICE, unsafe, log 3). -/
def Timer.due (t : Timer) : Bool := t == some 0

/-! ### The transmit queue (R166, R167) -/

/-- What a message counts as where the queue gives up messages (R167). -/
inductive Precedence where
  | twin
  | answer
  | notice
  deriving DecidableEq, Repr

/-- Twin messages, answers (REPLY and STATUS) and notices. -/
def Message.precedence : Message → Precedence
  | .report _ _ _ _ _ => .twin
  | .stored _ => .twin
  | .unstored _ => .twin
  | .takeover _ => .twin
  | .reply _ _ _ _ _ => .answer
  | .engineStatus _ _ => .answer
  | .engineCounters _ _ => .answer
  | .channelStatus _ _ => .answer
  | .notice _ _ _ _ => .notice

/-- The class of a message (the table of R166). -/
def Message.cls (swap : Bool) (m : Message) : Nat :=
  match m.precedence with
  | .twin => 0
  | .answer => if swap then 2 else 1
  | .notice => if swap then 1 else 2

/-- Most entries of the transmit queue (R166). -/
def txCapacity : Nat := 16

/-- Place an entry after every entry of its own class and of lower class numbers, before every entry of higher ones. -/
def placeEntry (e : TxEntry) (q : List TxEntry) : List TxEntry :=
  match q with
  | [] => [e]
  | x :: rest => if x.cls ≤ e.cls then x :: placeEntry e rest else e :: x :: rest

/-- The newest entry of a precedence that is not on the line. -/
def newestOf (p : Precedence) (onLine : Option Nat) (q : List TxEntry) : Option TxEntry :=
  q.reverse.find? fun e => e.msg.precedence == p && some e.age != onLine

/-- The entry that a new class 0 message displaces from a full queue: the newest NOTICE not on the line, else the newest
REPLY or STATUS not on the line (R167). -/
def displaced (onLine : Option Nat) (q : List TxEntry) : Option TxEntry :=
  (newestOf .notice onLine q).or (newestOf .answer onLine q)

/-- The queue without the entry of an age. -/
def dropAge (age : Nat) (q : List TxEntry) : List TxEntry := q.filter fun e => e.age != age

/-- A message joins the transmit queue (R167). -/
def CueLine.join (swap : Bool) (m : Message) (l : CueLine) : CueLine :=
  let e : TxEntry := { msg := m, cls := m.cls swap, age := l.nextAge }
  if l.queue.length < txCapacity then
    { l with queue := placeEntry e l.queue, nextAge := l.nextAge + 1 }
  else if m.precedence = .twin then
    match displaced l.onLine l.queue with
    | some x =>
      { l with queue := placeEntry e (dropAge x.age l.queue), nextAge := l.nextAge + 1, droppedLatch := true }
    | none => { l with droppedLatch := true }
  else { l with droppedLatch := true }

/-- Queue a message (R167). -/
def State.transmit (m : Message) (s : State) : State :=
  { s with cue := s.cue.join s.status.cfg.classSwap m }

/-- Raise a notice cause (R178): a NOTICE is queued unless the mask disables the cause. -/
def State.notice (cause : Cause) (reason channel : Byte) (count : HouseCount) (s : State) : State :=
  if s.status.cfg.mask.getLsbD (cause.code - 1) then s.transmit (.notice cause reason channel count) else s

/-- A notice of the engine, with the house count of the most recent tick. -/
def State.engineNotice (cause : Cause) (reason : Byte) (s : State) : State :=
  s.notice cause reason engineChannel s.ref.count

/-- A notice of a channel, with the house count of the most recent tick. -/
def State.channelNotice (cause : Cause) (reason : Byte) (c : Port) (s : State) : State :=
  s.notice cause reason (portByte c) s.ref.count

/-- A REPLY to the sender of a command (R176). -/
def State.reply (dest : Station) (code : ReplyCode) (adjusted : Bool) (channel kind : Byte) (s : State) : State :=
  s.transmit (.reply dest code adjusted channel kind)

end Sys2Proof.Machine
end

