-- ==== Sys2Proof/Machine/Flags.lean ====
section
/-! DEFINITION. Flags and counters computed from other state: the damage score (R53), the tally (R31, R32), STATUS
snapshots with the clearing of latches and counters (R179 to R182). -/

namespace Sys2Proof.Machine

/-! ### Counts and damage -/

/-- The damage score of R53. -/
def damageScore (c : Counts) : Nat := min 65535 (8 * (c.fills + c.skipped) + 2 * (c.repeats + c.drops))

/-- Change the counts of a record, with its damage kept equal to its formula (R52, R53). -/
def Record.count (f : Counts → Counts) (r : Record) : Record :=
  { r with counts := f r.counts, damage := damageScore (f r.counts) }

/-! ### Tally (R31, R32) -/

/-- The tally state by the first row of R31's table that applies. -/
def tallyOf (fault : Bool) (st : ChannelState) (feed : FeedCondition) : TallyState :=
  if fault then .alert
  else
    match st, feed with
    | .idle, _ => .off
    | _, .lost _ => .alert
    | .armed, .live => .ready
    | .recording, .live => .on
    | .ending, .live => .on

/-- Whether the output is on at a phase (the table of R32). -/
def tallyLit (t : TallyState) (phase : Nat) : Bool :=
  match t with
  | .off => false
  | .ready => phase == 0
  | .on => true
  | .alert => phase % 2 == 0

/-- The level of the output pin: "on" is high unless the configuration drives active-low (R32). -/
def tallyLevel (activeLow lit : Bool) : Bool := lit != activeLow

/-- Re-evaluate the tally of a channel (R31): a new state starts at phase 0 and drives the output at once. -/
def State.retally (c : Port) (s : State) : State :=
  let x := s.chan c
  let t := tallyOf x.port.faultMark x.take.st x.port.feed
  if t = x.port.tally then s
  else
    s.onPort c fun p =>
      { p with tally := t, tallyPhase := 0, tallyOut := tallyLevel s.status.cfg.activeLow (tallyLit t 0) }

/-- The tally step of a house tick (R32). -/
def State.tallyStep (c : Port) (s : State) : State :=
  s.onPort c fun p =>
    let phase := (p.tallyPhase + 1) % 16
    { p with tallyPhase := phase, tallyOut := tallyLevel s.status.cfg.activeLow (tallyLit p.tally phase) }

/-! ### STATUS (R180, R181) -/

/-- The number of FREE records (R77). -/
def State.freeRecordCount (s : State) : Nat := (allRecs.filter fun i => (s.record i).st == .free).length

/-- What engine STATUS part 0 reports (R180). -/
def State.engineSnapshot (s : State) : EngineStatus :=
  { station := s.status.station, source := s.status.source, refLost := s.ref.lostLatch,
    storeHalted := s.link.haltedLatch, configDefaulted := s.status.defaultedLatch,
    txDropped := s.cue.droppedLatch, lineStuck := s.cue.stuckLatch, linkFailed := s.link.failedLatch,
    refState := s.ref.st, cur := s.ref.cur, prev := s.ref.prev, count := s.ref.count, latch := s.link.latch,
    freePages := s.pool.free.length, freeRecords := s.freeRecordCount }

/-- What engine STATUS part 1 reports (R180). -/
def State.counterSnapshot (s : State) : EngineCounters :=
  { stored := s.link.stored, fault := s.link.fault, stray := s.link.stray, clash := s.cue.clash,
    rxBad := s.cue.rxBad, lateReport := s.arb.lateReport, unmatched := s.arb.unmatched,
    takeovers := s.arb.takeovers, evictions := s.pool.evictions }

/-- What a channel STATUS reports (R181): an IDLE channel holds no feed. -/
def State.channelSnapshot (c : Port) (s : State) : ChannelStatus :=
  let x := s.chan c
  { channel := c, st := x.take.st, feedId := if x.take.st = .idle then none else x.port.feedId,
    bufferFull := x.take.buffer.isSome, cueEmpty := x.take.cueEmpty, feed := x.port.feed,
    debPresence := x.port.debPresence, faultMark := x.port.faultMark, consecBad := x.port.consecBad,
    sync := x.sync.st, accepted := x.port.accepted, corrupt := x.port.corrupt, foreign := x.port.foreign,
    late := x.sync.late, duplicate := x.sync.duplicate, discontinuities := x.sync.discontinuities,
    skips := x.sel.skips, overruns := x.take.overruns }

/-- Clear the six status latches that an engine STATUS reports (R179, R180). -/
def State.clearLatches (s : State) : State :=
  { s with
    ref := { s.ref with lostLatch := false }
    link := { s.link with haltedLatch := false, failedLatch := false }
    cue := { s.cue with stuckLatch := false, droppedLatch := false }
    status := { s.status with defaultedLatch := false } }

/-- Set the nine engine counters to 0 (R182). -/
def State.clearEngineCounters (s : State) : State :=
  { s with
    link := { s.link with stored := 0, fault := 0, stray := 0 }
    cue := { s.cue with clash := 0, rxBad := 0 }
    arb := { lateReport := 0, unmatched := 0, takeovers := 0 }
    pool := { s.pool with evictions := 0 } }

/-- Set the eight counters of a channel to 0 (R182). -/
def State.clearChannelCounters (c : Port) (s : State) : State :=
  let x := s.chan c
  s.setChan c
    { port := { x.port with accepted := 0, corrupt := 0, foreign := 0 }
      sync := { x.sync with late := 0, duplicate := 0, discontinuities := 0 }
      take := { x.take with overruns := 0 }
      sel := { x.sel with skips := 0 } }

end Sys2Proof.Machine
end

