-- ==== Sys2Proof/Machine/Memory.lean ====
section
/-! DEFINITION. Staging memory (section 5.3): bytes by address, page * 131,072 + offset. An unlisted address reads 0
(DESIGN CHOICE, log 9); the manual never reads a byte that packing has not written. -/

namespace Sys2Proof.Machine

/-- Bytes in a page (section 5.3). -/
def pageBytes : Nat := 131072

/-- What an address that is not listed reads as (log 9). -/
def unlistedByte : Byte := 0#8

/-- The byte at an address. -/
def Memory.read (m : Memory) (a : Nat) : Byte :=
  match m with
  | [] => unlistedByte
  | (x, b) :: rest => if a = x then b else Memory.read rest a

/-- Write one byte, keeping the canonical form. -/
def Memory.write (m : Memory) (a : Nat) (b : Byte) : Memory :=
  match m with
  | [] => if b = unlistedByte then [] else [(a, b)]
  | (x, y) :: rest =>
    if a < x then (if b = unlistedByte then (x, y) :: rest else (a, b) :: (x, y) :: rest)
    else if a = x then (if b = unlistedByte then rest else (a, b) :: rest)
    else (x, y) :: Memory.write rest a b

/-- The canonical form: addresses strictly rising, and no entry that reads as an unlisted address does. -/
def Memory.wf (m : Memory) : Bool :=
  match m with
  | [] => true
  | (_, b) :: [] => b != unlistedByte
  | (x, b) :: (y, c) :: rest => decide (x < y) && b != unlistedByte && Memory.wf ((y, c) :: rest)

/-- Address of stream byte `x` of a page list: page floor(x / 131,072) of the list, offset x mod 131,072 (R88, R110). -/
def streamAddress (pages : List Nat) (x : Nat) : Nat :=
  pages.getD (x / pageBytes) 0 * pageBytes + x % pageBytes

/-- Write bytes into a page list from stream byte `x` on (R88, R110). -/
def Memory.writeStream (pages : List Nat) (x : Nat) (bytes : List Byte) (m : Memory) : Memory :=
  match bytes with
  | [] => m
  | b :: rest => Memory.writeStream pages (x + 1) rest (Memory.write m (streamAddress pages x) b)

/-- The first `n` bytes of a page (R141). -/
def Memory.pageData (m : Memory) (page n : Nat) : List Byte :=
  (List.range' (page * pageBytes) n).map (Memory.read m)

end Sys2Proof.Machine
end

