-- ==== Sys2Proof/Machine/Staging.lean ====
section
/-! DEFINITION. The Staging Manager's pool: freeing a record (R79), eviction (R80), the low mark (R81) and page requests
(R82). -/

namespace Sys2Proof.Machine

/-- The two page lists of a record (R79). -/
inductive PageList where
  | essence
  | browse
  deriving DecidableEq, Repr

/-- A page list of a record. -/
def Record.pages (l : PageList) (r : Record) : List Nat :=
  match l with
  | .essence => r.essPages
  | .browse => r.brwPages

/-- A record with a page list replaced. -/
def Record.withPages (l : PageList) (p : List Nat) (r : Record) : Record :=
  match l with
  | .essence => { r with essPages := p }
  | .browse => { r with brwPages := p }

/-- The most pages a list may hold (R82). -/
def pageLimit (l : PageList) : Nat :=
  match l with
  | .essence => 1024
  | .browse => 128

/-- Free a record (R79): its essence pages, then its browse pages, join the tail of the free list, and the record takes
the cleared form of R78. -/
def State.freeRecord (i : RecIx) (s : State) : State :=
  let r := s.record i
  { s with
    pool :=
      { s.pool with
        free := s.pool.free ++ r.essPages ++ r.brwPages
        records := s.pool.records.set i Record.cleared } }

/-- A decision time as a plain number (R80). -/
def Record.decisionNumber (r : Record) : Nat := r.decisionTime.elim 0 BitVec.toNat

/-- Of a HELD record found so far and a record of higher index, the one that R80 calls the older. -/
def State.olderHeld (s : State) (best : Option RecIx) (i : RecIx) : Option RecIx :=
  if (s.record i).st = .held then
    match best with
    | none => some i
    | some j => if (s.record i).decisionNumber < (s.record j).decisionNumber then some i else some j
  else best

/-- The oldest HELD record: the lowest decision time, and among equal ones the lowest index (R80). -/
def State.oldestHeld (s : State) : Option RecIx := allRecs.foldl s.olderHeld none

/-- Evict a HELD record (R80). -/
def State.evict (i : RecIx) (s : State) : State :=
  let c := (s.record i).channel
  let s := s.freeRecord i
  let s := { s with pool := { s.pool with evictions := satInc s.pool.evictions } }
  s.channelNotice .evicted 0x00#8 c

/-- The low-mark test (R81): while the free page count is below the low mark, the oldest HELD record is evicted. `fuel`
bounds the evictions by the size of the table. -/
def State.lowMarkTest (fuel : Nat) (s : State) : State :=
  match fuel with
  | 0 => s
  | fuel + 1 =>
    if s.pool.free.length < s.status.cfg.lowMark then
      match s.oldestHeld with
      | some i => State.lowMarkTest fuel (s.evict i)
      | none => s
    else s

/-- Take the page at the head of the free list for a list of a record, then make the low-mark test (step 2 of R82). -/
def State.takePage (i : RecIx) (l : PageList) (s : State) : Option State :=
  match s.pool.free with
  | [] => none
  | p :: rest =>
    let s := { s with pool := { s.pool with free := rest } }
    let s := s.onRec i fun r => r.withPages l (r.pages l ++ [p])
    some (s.lowMarkTest 64)

/-- Take `n` pages one at a time; whether all were found. -/
def State.takePages (i : RecIx) (l : PageList) (n : Nat) (s : State) : State × Bool :=
  match n with
  | 0 => (s, true)
  | n + 1 =>
    match s.takePage i l with
    | none => (s, false)
    | some s' => State.takePages i l n s'

/-- Give back the pages a list holds beyond its first `n`, in the order they were taken (step 3 of R82). -/
def State.giveBack (i : RecIx) (l : PageList) (n : Nat) (s : State) : State :=
  let p := (s.record i).pages l
  let s := { s with pool := { s.pool with free := s.pool.free ++ p.drop n } }
  s.onRec i fun r => r.withPages l (p.take n)

/-- A request for `n` pages for a list of a record (R82); whether it succeeded. -/
def State.requestPages (i : RecIx) (l : PageList) (n : Nat) (s : State) : State × Bool :=
  let len := ((s.record i).pages l).length
  if len + n > pageLimit l then (s, false)
  else
    match s.takePages i l n with
    | (s', true) => (s', true)
    | (s', false) => (s'.giveBack i l len, false)

/-- The pages that `bytes` bytes need: ceil(bytes / 131,072) (R88, R110). -/
def pagesFor (bytes : Nat) : Nat := (bytes + (pageBytes - 1)) / pageBytes

end Sys2Proof.Machine
end

