-- ==== Sys2Proof/Machine/Store.lean ====
section
/-! DEFINITION. The Store Link Controller's shared operations: choosing and issuing requests (R140 to R142), failing a
record (R147), the halt of the enable latch (R149), and joining the write queue (R139). -/

namespace Sys2Proof.Machine

/-! ### Store progress of a record -/

/-- The place of the index record. -/
def indexRef : PageRef := { part := .index, page := 0 }

/-- The places of a record's pages: essence pages in list order, then browse pages (R142). -/
def Record.pageRefs (r : Record) : List PageRef :=
  (List.range r.essPages.length).map (fun n => { part := .essence, page := n }) ++
    (List.range r.brwPages.length).map (fun n => { part := .browse, page := n })

/-- The mark of a place; none is "not yet issued". -/
def Progress.mark (p : Progress) (ref : PageRef) : Option Mark :=
  (p.marks.find? fun x => x.1 == ref).map Prod.snd

/-- Set the mark of a place in a list of marks. -/
def putMark (ref : PageRef) (m : Mark) (l : List (PageRef × Mark)) : List (PageRef × Mark) :=
  match l with
  | [] => [(ref, m)]
  | x :: rest => if x.1 = ref then (ref, m) :: rest else x :: putMark ref m rest

/-- Mark a place of a record. -/
def Record.setMark (ref : PageRef) (m : Mark) (r : Record) : Record :=
  { r with progress := { r.progress with marks := putMark ref m r.progress.marks } }

/-- A record's index is due (case 1 of R140). -/
def Record.indexDue (r : Record) : Bool :=
  !r.progress.failed && r.pageRefs.all (fun ref => r.progress.mark ref == some .acknowledged) &&
    (r.progress.mark indexRef == none || r.progress.mark indexRef == some .unwritten)

/-- A record's first unwritten page (case 2 of R140). -/
def Record.unwrittenPage (r : Record) : Option PageRef :=
  if r.progress.failed then none else r.pageRefs.find? fun ref => r.progress.mark ref == some .unwritten

/-- A record's first never-issued page (R142). -/
def Record.nextPage (r : Record) : Option PageRef :=
  if r.progress.failed then none else r.pageRefs.find? fun ref => r.progress.mark ref == none

/-! ### Issuing (R140 to R142) -/

/-- The request to issue next, by the first case of R140 that applies: an index that is due, an unwritten page, the next
page at the issue point; in each the record nearest the head of the write queue. -/
def State.chooseRequest (s : State) : Option (RecIx × PageRef) :=
  ((s.link.queue.find? fun i => (s.record i).indexDue).map fun i => (i, indexRef)).or
    ((s.link.queue.findSome? fun i => (s.record i).unwrittenPage.map fun ref => (i, ref)).or
      (s.link.queue.findSome? fun i => (s.record i).nextPage.map fun ref => (i, ref)))

/-- The lowest-numbered FREE tag (R140). -/
def State.freeTag (s : State) : Option TagIx := allTags.find? fun t => s.tag t == .free

/-- Whether a request is the last of its part (LAST in R141). -/
def Record.isLast (r : Record) (ref : PageRef) : Bool :=
  match ref.part with
  | .essence => ref.page + 1 == r.essPages.length
  | .browse => ref.page + 1 == r.brwPages.length
  | .index => true

/-- Length of a page of a part of `total` bytes in `pages` pages (R141). -/
def pageLength (total pages n : Nat) : Nat :=
  if n + 1 = pages then total - pageBytes * (pages - 1) else pageBytes

/-- The data of a request (R141): the page's bytes from staging memory, or the index record as it stands. -/
def State.requestData (s : State) (r : Record) (ref : PageRef) : List Byte :=
  match ref.part with
  | .essence =>
    s.mem.pageData (r.essPages.getD ref.page 0) (pageLength r.essBytes r.essPages.length ref.page)
  | .browse =>
    s.mem.pageData (r.brwPages.getD ref.page 0) (pageLength r.brwBytes r.brwPages.length ref.page)
  | .index => indexRecord s.stationNumber r

/-- The state of a record once a request of it is issued (R141, R142). -/
def issuedState (st : RecState) (ref : PageRef) : RecState :=
  if ref.part = .index then .indexing else if st = .queued then .writing else st

/-- Issue one request on a tag (R140, R141). -/
def State.issueOne (t : TagIx) (i : RecIx) (ref : PageRef) (s : State) : State :=
  let r := s.record i
  let out := StoreMessage.request t r.key ref (r.isLast ref) (s.requestData r ref)
  let s := { s with storeOut := s.storeOut ++ [out] }
  let s := s.setTag t (.outstanding { record := i, ref := ref } (some s.status.cfg.swt))
  s.onRec i fun r => { r.setMark ref .issued with st := issuedState r.st ref }

/-- Issue requests one after another until a condition of R140 fails; each takes a FREE tag, so there are at most
`fuel` = 16 of them. -/
def State.issueUpTo (fuel : Nat) (s : State) : State :=
  match fuel with
  | 0 => s
  | fuel + 1 =>
    if s.link.st = .ready ∧ s.link.latch = true then
      match s.freeTag, s.chooseRequest with
      | some t, some (i, ref) => State.issueUpTo fuel (s.issueOne t i ref)
      | _, _ => s
    else s

/-- The next command waiting is a STORED that falls together with the event being taken, so it comes before the issue which
this event allows (R125, R128, R134). That an event reads this from the queue is the model's way of giving that order
(DESIGN CHOICE, safe, log 20). -/
def State.storedFollows (s : State) : Bool :=
  match s.pending with
  | .storedHeard m :: _ => m.together
  | _ => false

/-- Issue all that can be issued (R140), at once, unless a STORED that falls together with the event is taken first: then
the issue is made at the end of that STORED (R134; log 20). -/
def State.issue (s : State) : State := if s.storedFollows then s else s.issueUpTo 16

/-- A record goes to QUEUED and joins the tail of the write queue (R139); issuing is tested (R140; log 20). -/
def State.joinWriteQueue (i : RecIx) (s : State) : State :=
  let s := s.onRec i fun r => { r with st := .queued }
  let s := { s with link := { s.link with queue := s.link.queue ++ [i] } }
  s.issue

/-- A record leaves the write queue; those behind it close up (R139). -/
def State.leaveWriteQueue (i : RecIx) (s : State) : State :=
  { s with link := { s.link with queue := s.link.queue.filter (· != i) } }

/-! ### Failure and halt -/

/-- Whether some OUTSTANDING tag holds a request of a record. -/
def State.hasOutstanding (s : State) (i : RecIx) : Bool :=
  allTags.any fun t =>
    match s.tag t with
    | .outstanding r _ => r.record == i
    | _ => false

/-- Once a failed record has no OUTSTANDING tag left, it is announced UNSTORED and freed (R147). -/
def State.settleFailed (i : RecIx) (s : State) : State :=
  if (s.record i).progress.failed && !s.hasOutstanding i then
    let s := s.transmit (.unstored (s.record i).key)
    let s := { s with link := { s.link with fault := satInc s.link.fault } }
    (s.freeRecord i).leaveWriteQueue i
  else s

/-- Fail a record (R147): the failed mark is set and its unwritten marks are dropped. -/
def Record.fail (r : Record) : Record :=
  { r with progress := { marks := r.progress.marks.filter (fun x => x.2 != .unwritten), failed := true } }

/-- FAULT paired with a request of a record, or the expiry of its timer (R147). -/
def State.failRecord (i : RecIx) (s : State) : State := (s.onRec i Record.fail).settleFailed i

/-- The enable latch is cleared by the line or by FULL (R149): nothing further is done when it is already clear. -/
def State.haltStore (reason : Byte) (s : State) : State :=
  if s.link.latch then
    let s := { s with link := { s.link with latch := false, haltedLatch := true } }
    s.engineNotice .storeHalted reason
  else s

/-- Add 1 to STRAY (R154). -/
def State.countStray (s : State) : State :=
  { s with link := { s.link with stray := satInc s.link.stray } }

end Sys2Proof.Machine
end

