-- ==== Sys2Proof/Machine/Gateway.lean ====
section
/-! DEFINITION. What arrives from the storage gateway: acknowledgements (R143 to R147), the expiry of store waiting timers
(R148), the STORE-HALT line (R149), CLEARED and the clear timer (R152, R153), and other messages (R186). -/

namespace Sys2Proof.Machine

/-- OK paired with a request (R144, R145). -/
def State.ackOk (i : RecIx) (ref : PageRef) (s : State) : State :=
  if (s.record i).progress.failed then s.settleFailed i
  else if ref.part = .index then
    let s := s.transmit (.stored (s.record i).key)
    let s := { s with link := { s.link with stored := satInc s.link.stored } }
    (s.freeRecord i).leaveWriteQueue i
  else s.onRec i (Record.setMark ref .acknowledged)

/-- FULL paired with a request (R146). -/
def State.ackFull (i : RecIx) (ref : PageRef) (s : State) : State :=
  let s :=
    if (s.record i).progress.failed then s.settleFailed i else s.onRec i (Record.setMark ref .unwritten)
  s.haltStore reasonFull

/-- FAULT paired with a request (R147); a record failed already is not failed again. -/
def State.ackFault (i : RecIx) (s : State) : State :=
  if (s.record i).progress.failed then s.settleFailed i else s.failRecord i

/-- The status byte of an acknowledgement: 00H OK, 01H FULL, any other FAULT (R143, R186). -/
def State.ackStatus (status : Byte) (i : RecIx) (ref : PageRef) (s : State) : State :=
  if status = 0x00#8 then s.ackOk i ref else if status = 0x01#8 then s.ackFull i ref else s.ackFault i

/-- An acknowledgement of a tag outside CLEARING, by the state of the tag (R143). -/
def State.ackTag (t : TagIx) (status : Byte) (s : State) : State :=
  match s.tag t with
  | .outstanding r _ => ((s.setTag t .free).ackStatus status r.record r.ref).issue
  | .quarantined _ => (s.setTag t .free).countStray.issue
  | .free => s.countStray

/-- An acknowledgement (R143, R152, R186): nothing is taken before start-up has ended (log 11). -/
def State.acknowledge (tag status : Byte) (s : State) : State :=
  if s.running then
    if h : tag.toNat < 16 then
      if s.link.st = .clearing then s.countStray else s.ackTag ⟨tag.toNat, h⟩ status
    else s.countStray
  else s

/-- Expiry of a tag's store waiting timer (R148). -/
def State.storeExpiry (t : TagIx) (s : State) : State :=
  match s.tag t with
  | .outstanding r n =>
    if Timer.due n then (s.setTag t (.quarantined r)).ackFault r.record else s
  | .quarantined _ => s
  | .free => s

/-- An assertion edge of the STORE-HALT input (R149); before start-up ends only its level is kept (R155). -/
def State.haltAssert (s : State) : State :=
  let s' := { s with storeHalt := true }
  if s.running then s'.haltStore reasonLine else s'

/-- CLEARED (R152, R153). -/
def State.clearedReceived (s : State) : State :=
  if s.running then
    if s.link.st = .clearing then
      State.issue { s with link := { s.link with st := .ready, clearTimer := none, latch := s.link.latch || !s.storeHalt } }
    else s.countStray
  else s

/-- Expiry of the clear timer (R152). -/
def State.clearExpiry (s : State) : State :=
  if s.link.st = .clearing ∧ Timer.due s.link.clearTimer = true then
    { s with link := { s.link with st := .failed, clearTimer := none, failedLatch := true } }
  else s

/-- ACKNOWLEDGEMENT (R143). -/
def execAcknowledgement (tag status : Byte) (s : State) : Host.Outcome State Fault Refusal :=
  .next (s.acknowledge tag status)

/-- STORE_WAITING_TIMER_EXPIRY (R148). -/
def execStoreWaitingTimerExpiry (tag : TagIx) (s : State) : Host.Outcome State Fault Refusal :=
  .next (s.storeExpiry tag)

/-- STORE_HALT_ASSERT (R149). -/
def execStoreHaltAssert (s : State) : Host.Outcome State Fault Refusal := .next s.haltAssert

/-- STORE_HALT_RELEASE (R149): the line's level falls and the latch does not change. -/
def execStoreHaltRelease (s : State) : Host.Outcome State Fault Refusal := .next { s with storeHalt := false }

/-- CLEARED (R152). -/
def execCleared (s : State) : Host.Outcome State Fault Refusal := .next s.clearedReceived

/-- CLEAR_TIMER_EXPIRY (R152). -/
def execClearTimerExpiry (s : State) : Host.Outcome State Fault Refusal := .next s.clearExpiry

/-- STORE_LINK_OTHER_TYPE (R186): ignored and counted nowhere, whatever its type byte. -/
def execStoreLinkOtherType (_kind : Byte) (s : State) : Host.Outcome State Fault Refusal := .next s

end Sys2Proof.Machine
end

