-- ==== Sys2Proof/Machine/Operands.lean ====
section
/-! DEFINITION. What commands carry, read from their bytes by the layouts of chapter 11: the feed frame header, the
payloads of the cue-line commands, the configuration image, and the cue-line frame with its stuffing (R157, R158, R164). -/

namespace Sys2Proof.Machine

/-! ### Feed frame (section 11.2) -/

/-- The sync marker (section 11.2). -/
def syncMarker : List Byte := [0x4E#8, 0x1B#8, 0x72#8, 0xD8#8]

/-- Bit `i` of the byte at `offset`. -/
def flagAt (bytes : List Byte) (offset i : Nat) : Bool := (bytes.getD offset 0#8).getLsbD i

/-- Four timecode bytes. -/
def timecodeAt (bytes : List Byte) (offset : Nat) : Timecode :=
  { hours := bytes.getD offset 0#8, minutes := bytes.getD (offset + 1) 0#8,
    seconds := bytes.getD (offset + 2) 0#8, frames := bytes.getD (offset + 3) 0#8 }

/-- The fields of a 16-byte header (section 11.2). -/
def parseHeader (h : List Byte) : Header :=
  { feedId := BitVec.ofNat 16 (field h 0 2), seq := BitVec.ofNat 16 (field h 2 2),
    timecode := timecodeAt h 4, length := field h 8 3, key := flagAt h 11 0, ends := flagAt h 11 1 }

/-- A good header: its check matches and its payload length is 1 to 1,048,576 (R17). -/
def headerGood (h : List Byte) : Bool :=
  decide (crc16 (h.take 14) = field h 14 2) && decide (1 ≤ field h 8 3) &&
    decide (field h 8 3 ≤ 1048576)

/-! ### Cue-line payloads (section 11.3) -/

/-- The fields of an ARM payload. -/
structure ArmFields where
  port : Nat
  mask : BitVec 16
  feed : FeedId
  params : ChannelParams
  deriving DecidableEq, Repr

/-- The ARM payload, 23 bytes; the parameters as sent, whatever the mask. -/
def parseArm (p : List Byte) : ArmFields :=
  { port := field p 0 1, mask := BitVec.ofNat 16 (field p 1 2), feed := BitVec.ofNat 16 (field p 3 2),
    params :=
      { segLen := field p 5 2, w := field p 7 1, p := field p 8 1, g := field p 9 1, fwt := field p 10 1,
        k := field p 11 2, twin := flagAt p 13 0, gating := flagAt p 13 1,
        n := field p 14 1 / 16 + 1, d := field p 14 1 % 16 + 1,
        target := field p 15 2, bucket := field p 17 4, qMin := field p 21 1, qMax := field p 22 1 } }

/-- Each parameter from the ARM where its mask bit marks it present, otherwise the default (R58, section 11.3). -/
def armParams (f : ArmFields) (dflt : ChannelParams) : ChannelParams :=
  let x := f.params
  let has (i : Nat) : Bool := f.mask.getLsbD i
  { segLen := if has 0 then x.segLen else dflt.segLen
    w := if has 1 then x.w else dflt.w
    p := if has 2 then x.p else dflt.p
    g := if has 3 then x.g else dflt.g
    fwt := if has 4 then x.fwt else dflt.fwt
    k := if has 5 then x.k else dflt.k
    twin := if has 6 then x.twin else dflt.twin
    gating := if has 7 then x.gating else dflt.gating
    n := if has 8 then x.n else dflt.n
    d := if has 8 then x.d else dflt.d
    target := if has 9 then x.target else dflt.target
    bucket := if has 10 then x.bucket else dflt.bucket
    qMin := if has 11 then x.qMin else dflt.qMin
    qMax := if has 12 then x.qMax else dflt.qMax }

/-- Every parameter brought into its range, in the order of R58. -/
def clampParams (x : ChannelParams) : ChannelParams :=
  let w := clamp 1 8 x.w
  let d := clamp 1 16 x.d
  let target := clamp 512 65535 x.target
  let qMin := clamp 1 31 x.qMin
  { segLen := clamp 8 1024 x.segLen
    w := w
    p := clamp 1 w x.p
    g := clamp 0 7 x.g
    fwt := clamp 1 255 x.fwt
    k := clamp 0 1023 x.k
    twin := x.twin
    gating := x.gating
    n := clamp 1 d x.n
    d := d
    target := target
    bucket := clamp (2 * target) 4194304 x.bucket
    qMin := qMin
    qMax := max qMin (clamp 1 31 x.qMax) }

/-- The cue of a CUE payload, 8 bytes: port, clip id, length, flags. -/
def parseCue (p : List Byte) : Cue :=
  { clip := BitVec.ofNat 32 (field p 1 4), length := field p 5 2, tie := flagAt p 7 0, pause := flagAt p 7 1 }

/-- The port that the first byte of a payload names: none above 3. -/
def parsePort (p : List Byte) : Option Port :=
  if h : field p 0 1 < 4 then some ⟨field p 0 1, h⟩ else none

/-- The 12-byte key at the start of a twin message. -/
def parseKey (p : List Byte) : Key :=
  { feed := BitVec.ofNat 16 (field p 0 2), clip := BitVec.ofNat 32 (field p 2 4),
    seg := BitVec.ofNat 16 (field p 6 2), first := BitVec.ofNat 32 (field p 8 4) }

/-! ### Configuration image (section 11.6) -/

/-- A good image (R172, R188): its length byte is 33 to 128, that many bytes were read, and the check matches. -/
def imageGood (image : List Byte) : Bool :=
  let n := field image 0 1
  decide (33 ≤ n) && decide (n ≤ 128) && decide (n ≤ image.length) &&
    decide (crc16 (image.take (n - 2)) = field image (n - 2) 2)

/-- The reduction a code names; any other code is 1/4 per axis (R173). -/
def parseSpatial (code : Nat) : Spatial :=
  if code = 1 then .half else if code = 3 then .eighth else .quarter

/-- The configuration of a good image, each field brought into its range (R173, R188). -/
def parseImage (b : List Byte) : Configuration :=
  { params := clampParams
      { segLen := field b 1 2, w := field b 3 1, p := field b 4 1, g := field b 5 1, fwt := field b 6 1,
        k := field b 7 2, twin := flagAt b 9 0, gating := flagAt b 9 1,
        n := field b 10 1 / 16 + 1, d := field b 10 1 % 16 + 1,
        target := field b 11 2, bucket := field b 13 4, qMin := field b 17 1, qMax := field b 18 1 }
    drain := clamp 1 50 (field b 19 1)
    rw := clamp 1 100 (field b 20 1)
    cw := clamp 1 1000 (field b 21 2)
    swt := clamp 1 250 (field b 23 1)
    lowMark := clamp 0 8192 (field b 24 2)
    spatial := parseSpatial (field b 26 1)
    classSwap := flagAt b 9 2
    divisor := clamp 27 2700 (field b 27 2)
    activeLow := flagAt b 9 3
    mask := BitVec.ofNat 12 (field b 29 2) }

/-! ### Cue-line frame (R157, R158, R164) -/

/-- The target that a target type byte and a target value name (section 11.3). -/
def parseTarget (kind : Byte) (value : BitVec 16) : Target :=
  if kind = 0x01#8 then .station value
  else if kind = 0x02#8 then .feed value
  else if kind = 0x03#8 then .all
  else .other

/-- The number that bits stand for, most significant bit first; a recessive bit is 1. -/
def bitsValue (bits : List Bool) : Nat := bits.foldl (fun acc b => acc * 2 + b.toNat) 0

/-- Bits taken eight at a time as bytes, most significant bit first. -/
def bitsToBytes (bits : List Bool) : List Byte :=
  match bits with
  | b7 :: b6 :: b5 :: b4 :: b3 :: b2 :: b1 :: b0 :: rest =>
    BitVec.ofNat 8 (bitsValue [b7, b6, b5, b4, b3, b2, b1, b0]) :: bitsToBytes rest
  | _ => []

/-- Bits of the fields up to the payload length; the arbitration, kind, target type, target value and length. -/
def headBits : Nat := 48

/-- Remove the stuff bits of a frame (R158): from the bits after the start bit, the level and length of the run so far,
how many bits are still to be collected, and those collected (newest first). When the payload length has been collected,
payload and check are added to what is to come; a length above 32 is a fault (R164). The answer is the collected bits in
order and what follows the last stuff bit, or none at a run of seven equal bits. -/
def destuff (bits : List Bool) (level : Bool) (run need : Nat) (inHead : Bool) (got : List Bool) :
    Option (List Bool × List Bool) :=
  match need, inHead with
  | 0, false =>
    if run = 6 then
      match bits with
      | [] => none
      | b :: rest => if b = level then none else some (got.reverse, rest)
    else some (got.reverse, bits)
  | 0, true => none
  | need' + 1, _ =>
    match bits with
    | [] => none
    | b :: rest =>
      if run = 6 then
        if b = level then none else destuff rest b 1 (need' + 1) inHead got
      else
        let run' := if b = level then run + 1 else 1
        if inHead && need' == 0 then
          let len := bitsValue ((b :: got).take 8).reverse
          if len > 32 then none else destuff rest b run' (8 * len + 16) false (b :: got)
        else destuff rest b run' need' inHead (b :: got)

/-- A frame received whole: its kind and the message. -/
structure RxFrame where
  kind : Byte
  heard : Heard
  deriving DecidableEq, Repr

/-- Recessive bits that stand for the line after the bits given: a run of seven settles what they do not reach. -/
def linePad : Nat := 20

/-- The collected bits of a frame, from its start bit on, and what follows its check (R158); none at a fault before that
(R164). A station that stops driving leaves the line recessive (R156), so the bits are followed by recessive ones. -/
def frameParts (bits : List Bool) : Option (List Bool × List Bool) :=
  match bits with
  | false :: rest => destuff (rest ++ List.replicate linePad true) false 1 headBits true []
  | _ => none

/-- The tests of R164 over the bits of a frame, from its start bit on: none is a fault. -/
def receiveFrame (bits : List Bool) : Option RxFrame :=
  match frameParts bits with
  | none => none
  | some (data, tail) =>
    let bytes := bitsToBytes data
    let n := bytes.length - 2
    if crc16 (bytes.take n) = field bytes n 2 ∧ tail.take 8 = List.replicate 8 true then
      some
        { kind := bytes.getD 1 0#8
          heard :=
            { sender := BitVec.ofNat 5 (field bytes 0 1)
              target := parseTarget (bytes.getD 2 0#8) (BitVec.ofNat 16 (field bytes 3 2))
              payload := (bytes.take n).drop 6 } }
    else none

/-- Whether the bits given reach the moment at which the frame is settled (R164): the last end bit of one that is received, the
last bit of the check of one whose check fails. A fault before that needs no more bits. -/
def frameReached (bits : List Bool) : Bool :=
  match frameParts bits with
  | none => true
  | some (_, tail) => decide (linePad + (if (receiveFrame bits).isSome then 8 else 0) ≤ tail.length)

end Sys2Proof.Machine
end

