-- ==== Sys2Proof/Machine/Segments.lean ====
section
/-! DEFINITION. Opening and closing segments: close complete (R92 to R95), the close (R91), and the opening request (R83 to
R86). -/

namespace Sys2Proof.Machine

/-- The channel's OPEN segment record, if it has one (R77, R85). -/
def State.openRecord (s : State) (c : Port) : Option RecIx :=
  allRecs.find? fun i => (s.record i).st == .opened && (s.record i).channel == c

/-- Change the counts of the channel's OPEN segment, if it has one (R52). -/
def State.countOpen (c : Port) (f : Counts → Counts) (s : State) : State :=
  match s.openRecord c with
  | some i => s.onRec i (Record.count f)
  | none => s

/-- Close complete (R92): the REPORT is queued, then the record is DISCARDED (R95), goes to DECIDING (R93) or joins the
write queue (R94). -/
def State.closeComplete (i : RecIx) (s : State) : State :=
  let s := s.onRec i fun r => { r with drainTimer := none }
  let r := s.record i
  let s := s.transmit (.report r.key r.counts.placements r.damage r.short r.torn)
  if r.storedElsewhere then s.freeRecord i
  else if r.twin then
    s.onRec i fun r => { r with st := .deciding, windowTimer := some s.status.cfg.rw }
  else s.joinWriteQueue i

/-- A close (R91): TORN as the kind of close sets it, SHORT when the record holds fewer than L placements; close complete
at once with no pending browse jobs, otherwise the drain timer starts (R112). -/
def State.closeRecord (torn : Bool) (i : RecIx) (s : State) : State :=
  let s := s.onRec i fun r =>
    { r with st := .closing, short := decide (r.counts.placements < r.segLen), torn := torn }
  if (s.record i).pendingJobs = 0 then s.closeComplete i
  else s.onRec i fun r => { r with drainTimer := some s.status.cfg.drain }

/-- Close the channel's OPEN segment, if there is one. -/
def State.closeOpen (torn : Bool) (c : Port) (s : State) : State :=
  match s.openRecord c with
  | some i => s.closeRecord torn i
  | none => s

/-- The span's segment is absent (R86). -/
def State.overrun (reason : Byte) (c : Port) (s : State) : State :=
  let s := s.onTake c fun t => { t with overruns := satInc t.overruns }
  s.channelNotice .overrun reason c

/-- A record as an opening sets it up (R85). -/
def Record.setUp (c : Port) (key : Key) (segLen : Nat) (twin : Bool) : Record :=
  { Record.cleared with st := .opened, channel := c, key := key, segLen := segLen, twin := twin }

/-- The FREE record of lowest index (R83). -/
def State.lowestFree (s : State) : Option RecIx := allRecs.find? fun i => (s.record i).st == .free

/-- Whether an in-use record holds a key (R84). -/
def State.findKey (s : State) (key : Key) : Option RecIx :=
  allRecs.find? fun i => (s.record i).st != .free && (s.record i).key == key

/-- An opening request (R83): key check, FREE record, eviction, OVERRUN. -/
def State.openSegment (c : Port) (key : Key) (s : State) : State :=
  let t := (s.chan c).take
  if (s.findKey key).isSome then s.overrun reasonKey c
  else
    match s.lowestFree with
    | some i => s.onRec i fun _ => Record.setUp c key t.segLen t.twin
    | none =>
      match s.oldestHeld with
      | some i => (s.evict i).onRec i fun _ => Record.setUp c key t.segLen t.twin
      | none => s.overrun reasonRecords c

end Sys2Proof.Machine
end

