-- ==== Sys2Proof/Machine/Browse.lean ====
section
/-! DEFINITION. The Browse Unit: selection (R100 to R103), the coder (R104 to R107), completions and the budget (R108 to
R111), withdrawal (R113, R114). -/

namespace Sys2Proof.Machine

/-- Most jobs in the job queue, the job in progress included (R104). -/
def jobCapacity : Nat := 12

/-- The quantiser of R106. -/
def quantiser (x : Selector) : Nat := x.qMin + (x.qMax - x.qMin) * x.fullness / x.bucket

/-- An IDLE coder takes the head job, if there is one, and fixes its quantiser (R105, R106). -/
def State.startCoder (s : State) : State :=
  match s.browse.coder, s.browse.jobs with
  | .idle, j :: _ => { s with browse := { s.browse with coder := .coding (quantiser (s.chan j.channel).sel) } }
  | _, _ => s

/-- Add 1 to a channel's browse skip counter (R115). -/
def State.countSkip (c : Port) (s : State) : State := s.onSel c fun x => { x with skips := satInc x.skips }

/-- The selector starts afresh for a new clip (R100). -/
def Selector.newClip (x : Selector) : Selector := { x with a := x.d - x.n, fullness := 0 }

/-- Append an entry to a record's browse entry list. -/
def State.appendEntry (i : RecIx) (e : BrowseEntry) (s : State) : State :=
  s.onRec i fun r => { r with entries := r.entries ++ [e] }

/-- A selected PRESENT, with the frame's place in the record's essence: a job, or a SKIP when the queue is full (R102,
R103). -/
def State.selectPresent (c : Port) (i : RecIx) (offset length : Nat) (s : State) : State :=
  if s.browse.jobs.length < jobCapacity then
    let job : Job :=
      { channel := c, record := i, entry := (s.record i).entries.length, offset := offset, length := length,
        withdrawn := false }
    let s := s.appendEntry i .reserved
    let s := s.onRec i fun r => { r with pendingJobs := r.pendingJobs + 1 }
    let s := { s with browse := { s.browse with jobs := s.browse.jobs ++ [job] } }
    s.startCoder
  else (s.appendEntry i .skip).countSkip c

/-- A placement is offered to the channel's selector (R101): `frame` is the frame's place in the essence for a stored
PRESENT, none for a REPEAT or a FILL. -/
def State.offer (c : Port) (i : RecIx) (frame : Option (Nat × Nat)) (s : State) : State :=
  let x := (s.chan c).sel
  if x.a + x.n ≥ x.d then
    let s := s.onSel c fun x => { x with a := x.a + x.n - x.d }
    match frame with
    | some (offset, length) => s.selectPresent c i offset length
    | none => s.appendEntry i .hold
  else s.onSel c fun x => { x with a := x.a + x.n }

/-! ### Completions -/

/-- Resolve a reserved entry. -/
def State.setEntry (i : RecIx) (n : Nat) (e : BrowseEntry) (s : State) : State :=
  s.onRec i fun r => { r with entries := r.entries.set n e }

/-- A job's frame is skipped (R109, R110): SKIP in its entry, one browse skip, and the fullness drains one target. -/
def State.settleSkip (j : Job) (s : State) : State :=
  let s := s.setEntry j.record j.entry .skip
  let s := s.countSkip j.channel
  s.onSel j.channel fun x => { x with fullness := x.fullness - x.target }

/-- A job's frame is kept if pages are found for it (R110). -/
def State.settleKeep (j : Job) (coded : List Byte) (s : State) : State :=
  let r := s.record j.record
  let size := coded.length
  match s.requestPages j.record .browse (pagesFor (r.brwBytes + size) - r.brwPages.length) with
  | (s, true) =>
    let pages := (s.record j.record).brwPages
    let s := { s with mem := s.mem.writeStream pages r.brwBytes coded }
    let s := s.onRec j.record fun r => { r with brwBytes := r.brwBytes + size }
    let s := s.setEntry j.record j.entry (.size size)
    s.onSel j.channel fun x => { x with fullness := x.fullness + size - x.target }
  | (s, false) => s.settleSkip j

/-- A completion of a job that is not withdrawn is settled against the budget (R109). -/
def State.settleJob (j : Job) (coded : List Byte) (s : State) : State :=
  let x := (s.chan j.channel).sel
  if x.fullness + coded.length > x.bucket + x.target then s.settleSkip j else s.settleKeep j coded

/-- The head job leaves the queue, the coder is IDLE and starts the new head (steps 2 and 3 of R111). -/
def State.nextJob (s : State) : State :=
  { s with browse := { jobs := s.browse.jobs.tail, coder := .idle } }.startCoder

/-- A record whose last pending job has been settled while it is CLOSING is close complete (step 4 of R111). -/
def State.closeIfDrained (i : RecIx) (s : State) : State :=
  if (s.record i).st = .closing ∧ (s.record i).pendingJobs = 0 then s.closeComplete i else s

/-- A completion (R108, R111): nothing happens while the coder is IDLE. -/
def State.complete (coded : List Byte) (s : State) : State :=
  match s.browse.coder, s.browse.jobs with
  | .coding _, j :: _ =>
    if j.withdrawn then s.nextJob
    else
      let s := s.settleJob j coded
      let s := s.onRec j.record fun r => { r with pendingJobs := r.pendingJobs - 1 }
      (s.nextJob).closeIfDrained j.record
  | _, _ => s

/-! ### Withdrawal -/

/-- A job of a record that has not been withdrawn. -/
def Job.pendingFor (i : RecIx) (j : Job) : Bool := j.record == i && !j.withdrawn

/-- The job queue without a record's queued jobs; a job of the record in progress stays, marked withdrawn (R113, R114). -/
def withdrawJobs (i : RecIx) (b : BrowseUnit) : List Job :=
  match b.coder, b.jobs with
  | .coding _, j :: rest =>
    (if j.pendingFor i then { j with withdrawn := true } else j) :: rest.filter fun x => !x.pendingFor i
  | _, jobs => jobs.filter fun x => !x.pendingFor i

/-- Withdraw a record's jobs from the queue. -/
def State.withdraw (i : RecIx) (s : State) : State :=
  { s with browse := { s.browse with jobs := withdrawJobs i s.browse } }

/-- Expiry of a record's drain timer (R113). -/
def State.drainExpiry (i : RecIx) (s : State) : State :=
  let js := s.browse.jobs.filter (Job.pendingFor i)
  let c := (s.record i).channel
  let s := s.withdraw i
  let s := s.onRec i fun r =>
    { r with entries := js.foldl (fun es j => es.set j.entry .skip) r.entries, pendingJobs := 0 }
  let s := s.onSel c fun x => { x with skips := satAdd x.skips js.length }
  s.closeComplete i

end Sys2Proof.Machine
end

