-- ==== Sys2Proof/Machine/Placement.lean ====
section
/-! DEFINITION. Frame placement: arrivals (R36 to R42), the release of each tick (R45 to R49), loss and close of the
synchroniser (R50, R51), and the filling of an OPEN record (R87 to R89). -/

namespace Sys2Proof.Machine

/-! ### The window and the sequence distance (R36, R37) -/

/-- The sequence distance of a sequence number from E (R37); for a record in the window it is its position (R36). -/
def distance (e s : Seq) : Nat := (s - e).toNat

/-- The record at a position of the window. -/
def Synchroniser.at (y : Synchroniser) (pos : Nat) : Option FrameRecord :=
  y.window.find? fun f => distance y.e f.seq == pos

/-- Insert a record in order of position. -/
def insertFrame (e : Seq) (f : FrameRecord) (win : List FrameRecord) : List FrameRecord :=
  match win with
  | [] => [f]
  | x :: rest => if distance e f.seq < distance e x.seq then f :: x :: rest else x :: insertFrame e f rest

/-- What an arrival leaves, and what it counts against the OPEN segment: skipped and late (R38 to R42). -/
structure Arrival where
  sync : Synchroniser
  skipped : Nat
  late : Nat
  deriving DecidableEq, Repr

/-- A frame arrival (the bands of R37; SEEKING by R38). -/
def Synchroniser.arrive (f : FrameRecord) (y : Synchroniser) : Arrival :=
  if y.st = .seeking then
    { sync := { y with e := f.seq, window := [f], st := .preroll, h := 0 }, skipped := 0, late := 0 }
  else
    let d := distance y.e f.seq
    if d < y.w then
      if (y.at d).isSome then
        { sync := { y with duplicate := satInc y.duplicate }, skipped := 0, late := 0 }
      else { sync := { y with window := insertFrame y.e f y.window }, skipped := 0, late := 0 }
    else if d ≤ 255 then
      let e := f.seq - BitVec.ofNat 16 y.w + 1#16
      let kept := y.window.filter fun x => decide (distance e x.seq < y.w)
      { sync := { y with e := e, window := insertFrame e f kept, h := 0 }, skipped := d - y.w + 1, late := 0 }
    else if d ≤ 32767 then
      { sync :=
          { y with
            e := f.seq, window := [f], h := 0, discontinuities := satInc y.discontinuities }
        skipped := y.window.length, late := 0 }
    else { sync := { y with late := satInc y.late }, skipped := 0, late := 1 }

/-- A frame record is handed to the synchroniser (step 4 of R20). -/
def State.frameArrival (c : Port) (f : FrameRecord) (s : State) : State :=
  let a := (s.chan c).sync.arrive f
  let s := s.onSync c fun _ => a.sync
  s.countOpen c fun n => { n with skipped := satAdd n.skipped a.skipped, late := satAdd n.late a.late }

/-! ### Release (R45 to R49) -/

/-- A placement; a PRESENT carries its frame record (R44). -/
inductive Placement where
  | present (f : FrameRecord)
  | repeated
  | fill
  deriving DecidableEq, Repr

/-- What a tick's release leaves: the synchroniser, the placement, and the number of frames dropped (0 or 1). -/
structure Release where
  sync : Synchroniser
  placement : Placement
  drops : Nat
  deriving DecidableEq, Repr

/-- A REPEAT, or a FILL in its place while the repeat source mark is clear (R48, R49). -/
def Synchroniser.repeatOrFill (y : Synchroniser) : Placement := if y.repeatMark then .repeated else .fill

/-- The window without the record at position 0. -/
def Synchroniser.withoutHead (y : Synchroniser) : List FrameRecord :=
  y.window.filter fun f => distance y.e f.seq != 0

/-- After a PRESENT: drop the record at the new position 0 when the occupancy is above p (R47). -/
def Synchroniser.dropCheck (y : Synchroniser) : Synchroniser × Nat :=
  if y.window.length > y.p ∧ (y.at 0).isSome = true then
    ({ y with window := y.withoutHead, e := y.e + 1#16 }, 1)
  else (y, 0)

/-- The release of a tick in RUNNING (R46 to R49). -/
def Synchroniser.releaseRunning (y : Synchroniser) : Release :=
  match y.at 0 with
  | some f =>
    let y := { y with window := y.withoutHead, e := y.e + 1#16, h := 0, repeatMark := true }
    { sync := y.dropCheck.1, placement := .present f, drops := y.dropCheck.2 }
  | none =>
    if y.window = [] then { sync := y, placement := y.repeatOrFill, drops := 0 }
    else if y.h + 1 > y.g then
      { sync := { y with e := y.e + 1#16, h := 0 }, placement := .fill, drops := 0 }
    else { sync := { y with h := y.h + 1 }, placement := y.repeatOrFill, drops := 0 }

/-- The release of a tick (R45). -/
def Synchroniser.release (y : Synchroniser) : Release :=
  match y.st with
  | .seeking => { sync := y, placement := .fill, drops := 0 }
  | .preroll =>
    if y.window.length < y.p then { sync := y, placement := .fill, drops := 0 }
    else Synchroniser.releaseRunning { y with st := .running, h := 0 }
  | .running => y.releaseRunning

/-! ### Loss and close (R50, R51) -/

/-- The window emptied and the synchroniser seeking. -/
def Synchroniser.seek (y : Synchroniser) : Synchroniser := { y with window := [], st := .seeking, h := 0 }

/-- A loss (R50): the records of the window are counted skipped against the OPEN segment. -/
def State.syncLoss (c : Port) (s : State) : State :=
  let n := (s.chan c).sync.window.length
  let s := s.countOpen c fun k => { k with skipped := satAdd k.skipped n }
  s.onSync c Synchroniser.seek

/-! ### Filling an OPEN record (R87 to R89) -/

/-- Pack a PRESENT's payload (R88); whether it was stored, or met a pool miss (R89). -/
def State.pack (i : RecIx) (f : FrameRecord) (s : State) : State × Bool :=
  let r := s.record i
  let n := f.payload.length
  match s.requestPages i .essence (pagesFor (r.essBytes + n) - r.essPages.length) with
  | (s, true) =>
    let pages := (s.record i).essPages
    let s := { s with mem := s.mem.writeStream pages r.essBytes f.payload }
    let s := s.onRec i fun r =>
      { r with
        essBytes := r.essBytes + n, sizes := r.sizes ++ [n], timecode := r.timecode.or (some f.timecode) }
    (s, true)
  | (s, false) => (s, false)

/-- How a placement of a kind moves the counts (R52). -/
def PlacementKind.count (k : PlacementKind) (n : Counts) : Counts :=
  match k with
  | .present => { n with placements := satInc n.placements, present := satInc n.present }
  | .repeated => { n with placements := satInc n.placements, repeats := satInc n.repeats }
  | .fill => { n with placements := satInc n.placements, fills := satInc n.fills }

/-- The map entry and the counts of a placement, then its offer to the selector (steps 2 to 4 of R87). -/
def State.enterPlacement (c : Port) (i : RecIx) (kind : PlacementKind) (key : Bool) (frame : Option (Nat × Nat))
    (s : State) : State :=
  let s := s.onRec i fun r =>
    ({ r with map := r.map ++ [{ kind := kind, key := key }] } : Record).count kind.count
  s.offer c i frame

/-- Append a placement to the channel's OPEN record (R87). -/
def State.appendPlacement (c : Port) (i : RecIx) (x : Placement) (s : State) : State :=
  match x with
  | .present f =>
    let offset := (s.record i).essBytes
    match s.pack i f with
    | (s, true) => s.enterPlacement c i .present f.key (some (offset, f.payload.length))
    | (s, false) => s.enterPlacement c i .fill false none
  | .repeated => s.enterPlacement c i .repeated false none
  | .fill => s.enterPlacement c i .fill false none

/-- The release of a tick for a channel that is not IDLE (R44): the placement goes to the OPEN segment, if there is one,
and so does the count of a drop (R47). -/
def State.releasePlacement (c : Port) (s : State) : State :=
  let y := (s.chan c).sync.release
  let s := s.onSync c fun _ => y.sync
  match s.openRecord c with
  | none => s
  | some i =>
    (s.appendPlacement c i y.placement).onRec i
      (Record.count fun n => { n with drops := satAdd n.drops y.drops })

end Sys2Proof.Machine
end

