-- ==== Sys2Proof/Machine/Takes.lean ====
section
/-! DEFINITION. Takes and feed ports: notices of a take (R75), the boundary procedure (R63 to R67), hold-over (R70, R71), feed
conditions (R27, R28), the close of a port (R30), FEED FAULT (R22, R72). -/

namespace Sys2Proof.Machine

/-! ### Ending a take -/

/-- The take ends: the active cue is removed, the channel goes to ARMED, the hold-over counter is set to 0 (R63, R65,
R70). -/
def TakeController.endTake (t : TakeController) : TakeController :=
  { t with st := .armed, active := none, holdOver := 0 }

/-- The take ends and the cue buffer is emptied (R69, R71). -/
def TakeController.endTakeNow (t : TakeController) : TakeController := { t.endTake with buffer := none }

/-- Queue a TAKE END notice (R75). -/
def State.takeEnd (reason : EndReason) (c : Port) (s : State) : State := s.channelNotice .takeEnd reason.byte c

/-- Hold-over expiry (R71). -/
def State.holdOverExpire (c : Port) (s : State) : State :=
  let s := s.closeOpen true c
  let s := (s.onTake c TakeController.endTakeNow).retally c
  s.takeEnd .loss c

/-! ### Boundary handling (R63 to R67) -/

/-- Step 1 (R63): the boundary close, and the end of an ENDING take. -/
def State.boundaryClose (c : Port) (s : State) : State :=
  let s := s.closeOpen false c
  if (s.chan c).take.st = .ending then
    let s := (s.onTake c TakeController.endTake).retally c
    s.takeEnd .stop c
  else s

/-- A cue leaves the buffer and becomes the active cue (R64, R65). -/
def TakeController.load (q : Cue) (t : TakeController) : TakeController :=
  { t with buffer := none, active := some q, cueEmpty := true, remaining := q.length }

/-- A new clip begins with a cue (R64, R65). -/
def TakeController.newClip (q : Cue) (t : TakeController) : TakeController :=
  { t with clip := q.clip, nextSeg := 0#16 }

/-- Queue CUE EMPTY and TAKE START, and tell the selector that a new clip begins (R64, R65, R75). -/
def State.announceClip (c : Port) (s : State) : State :=
  let s := s.channelNotice .cueEmpty 0x00#8 c
  let s := s.channelNotice .takeStart 0x00#8 c
  s.onSel c Selector.newClip

/-- Step 2 (R64): a boundary in ARMED takes a buffered cue into force. -/
def State.takeStart (c : Port) (q : Cue) (s : State) : State :=
  let s := s.onTake c fun t => { (t.load q).newClip q with holdOver := 0, st := .recording }
  (s.retally c).announceClip c

/-- A buffered cue replaces the active cue (R65). -/
def State.replaceCue (c : Port) (q : Cue) (s : State) : State :=
  if q.tie then (s.onTake c (TakeController.load q)).channelNotice .cueEmpty 0x00#8 c
  else (s.onTake c fun t => (t.load q).newClip q).announceClip c

/-- Whether the active cue gives way to a buffered one or ends (R65): it is open, or timed and used up. -/
def TakeController.cueOver (t : TakeController) : Bool :=
  match t.active with
  | some q => q.length == 0 || t.remaining == 0
  | none => true

/-- Whether the active cue is open (R65). -/
def TakeController.cueOpen (t : TakeController) : Bool :=
  match t.active with
  | some q => q.length == 0
  | none => false

/-- Step 3 (R65): a boundary in RECORDING settles the active cue. -/
def State.settleCue (c : Port) (s : State) : State :=
  let t := (s.chan c).take
  if t.cueOver then
    match t.buffer with
    | some q => s.replaceCue c q
    | none =>
      if t.cueOpen then s
      else
        let s := (s.onTake c TakeController.endTake).retally c
        s.takeEnd .normal c
  else s

/-- The key of the segment that a boundary opens (R66). -/
def State.nextKey (c : Port) (s : State) : Key :=
  { feed := (s.chan c).port.feedId.getD 0#16, clip := (s.chan c).take.clip, seg := (s.chan c).take.nextSeg,
    first := s.ref.count }

/-- Last step (R67): a boundary that leaves the channel RECORDING consumes a segment number, counts down a timed cue, and
opens the span's segment unless the cue is a PAUSE. -/
def State.openSpan (c : Port) (s : State) : State :=
  let t := (s.chan c).take
  let key := s.nextKey c
  let s := s.onTake c fun t =>
    { t with remaining := if t.cueOpen then t.remaining else t.remaining - 1, nextSeg := t.nextSeg + 1#16 }
  match t.active with
  | some q => if q.pause then s else s.openSegment c key
  | none => s.openSegment c key

/-- The boundary procedure, R63 to R67: each step reads the channel state as the step before left it. A record that the
boundary close frees at once (STORED-ELSEWHERE set, no browse job pending: R91, R95) is FREE for the opening that follows,
and for the openings of channels that take the tick later, though R83 calls a record closed there no candidate (DESIGN
CHOICE, unsafe, log 29). -/
def State.boundary (c : Port) (s : State) : State :=
  let s := s.boundaryClose c
  let s :=
    match (s.chan c).take.st, (s.chan c).take.buffer with
    | .armed, some q => s.takeStart c q
    | .recording, _ => s.settleCue c
    | _, _ => s
  if (s.chan c).take.st = .recording then s.openSpan c else s

/-- A tick is a boundary for a channel (R11). -/
def State.isBoundary (presetTick : Bool) (c : Port) (s : State) : Bool :=
  presetTick || s.ref.count.toNat % (s.chan c).take.segLen == 0

/-! ### Feed conditions (R27, R28) -/

/-- Abandon a frame under assembly (R18): the receiver returns to HUNT; one that hunts already goes on. -/
def Receiver.abandon (r : Receiver) : Receiver :=
  match r with
  | .hunt seen => .hunt seen
  | _ => .hunt []

/-- Declare the feed LOST (R27). What is under assembly is abandoned; R22 and R26 let a last byte that falls together with an
expiry taken first still be judged, which `State.hearLane` gives (DESIGN CHOICE, safe, log 31). -/
def State.declareLost (c : Port) (reason : LossReason) (s : State) : State :=
  if (s.chan c).port.feed = .live then
    let s := (s.onPort c fun p => { p with feed := .lost reason }).retally c
    let s := s.onPort c fun p => { p with waitTimer := none, rx := p.rx.abandon }
    let s := s.channelNotice .feedLost reason.byte c
    s.syncLoss c
  else s.onPort c fun p => { p with feed := .lost reason }

/-- The feed is LIVE again (R28); the take controller's hold-over counter is cleared. -/
def State.feedBack (c : Port) (s : State) : State :=
  let first := (s.chan c).port.firstSinceArm
  let s := (s.onPort c fun p => { p with feed := .live, firstSinceArm := false }).retally c
  let s := if first then s else s.channelNotice .feedBack 0x00#8 c
  s.onTake c fun t => { t with holdOver := 0 }

/-! ### The tick in the take controller -/

/-- The boundary handling and the placement of a tick for a channel that is not IDLE (R13, R44). -/
def State.boundaryAndPlacement (presetTick : Bool) (c : Port) (s : State) : State :=
  let s := if s.isBoundary presetTick c then s.boundary c else s
  s.releasePlacement c

/-- Whether a tick is counted for hold-over (R70): the channel is RECORDING with its feed LOST. -/
def Channel.countsHoldOver (x : Channel) : Bool := x.take.st == .recording && x.port.feed != .live

/-- A tick in the take controller and the synchroniser: hold-over is counted and settled first (R70), then the boundary,
then the placement (R13, R44). -/
def State.takeTick (presetTick : Bool) (c : Port) (s : State) : State :=
  if (s.chan c).take.st = .idle then s
  else if (s.chan c).countsHoldOver then
    let s := s.onTake c fun t => { t with holdOver := t.holdOver + 1 }
    if (s.chan c).take.holdOver > (s.chan c).take.k then (s.holdOverExpire c).boundaryAndPlacement presetTick c
    else s.boundaryAndPlacement presetTick c
  else s.boundaryAndPlacement presetTick c

/-! ### Presence (R23 to R25) -/

/-- A debounced change of presence: with gating on, a fall in an OPEN port holds the receiver in HUNT and declares the feed
LOST (CARRIER) (R24, R25). -/
def State.presenceFall (c : Port) (s : State) : State :=
  let p := (s.chan c).port
  if p.gating ∧ p.opened then
    (s.onPort c fun p => { p with rx := .hunt [] }).declareLost c .carrier
  else s

/-- The presence sample of a tick (R23). -/
def State.samplePresence (level : Bool) (c : Port) (s : State) : State :=
  let p := (s.chan c).port
  if level = p.debPresence then s.onPort c fun p => { p with rawPresence := level, presenceRun := 0 }
  else if p.presenceRun + 1 < 3 then
    s.onPort c fun p => { p with rawPresence := level, presenceRun := p.presenceRun + 1 }
  else
    let s := s.onPort c fun p => { p with rawPresence := level, presenceRun := 0, debPresence := level }
    if level then s else s.presenceFall c

/-! ### Closing the port -/

/-- The close of a port (R30), silent to the synchroniser and the take controller. -/
def FeedPort.close (p : FeedPort) : FeedPort :=
  { p with opened := false, rx := .hunt [], waitTimer := none, feed := .lost .silent }

/-- The take controller in IDLE with its cues removed (R60, R72, R73). -/
def TakeController.toIdle (t : TakeController) : TakeController :=
  { t with st := .idle, buffer := none, active := none, holdOver := 0 }

/-- FEED FAULT (R22, R72): the fault mark, the close, the notice, then the take controller's handling. -/
def State.feedFault (c : Port) (s : State) : State :=
  let s := s.onPort c fun p => { p.close with faultMark := true }
  let s := s.onSync c Synchroniser.seek
  let s := s.channelNotice .feedFault 0x00#8 c
  let st := (s.chan c).take.st
  let s :=
    if st = .recording ∨ st = .ending then
      let s := s.closeOpen true c
      s.takeEnd .fault c
    else s
  (s.onTake c TakeController.toIdle).retally c

/-- A CORRUPT outcome (R17, R18, R22): the sixteenth in a row declares FEED FAULT. -/
def State.corruptOutcome (c : Port) (s : State) : State :=
  let s := s.onPort c fun p =>
    { p with corrupt := satInc p.corrupt, consecBad := p.consecBad + 1 }
  if (s.chan c).port.consecBad = 16 then s.feedFault c else s

end Sys2Proof.Machine
end

