-- ==== Sys2Proof/Machine/Lane.lean ====
section
/-! DEFINITION. The lane receiver (R15 to R21) and the commands of the feed ports: SYNC_MARKER_FOUND, HEADER_JUDGED,
FRAME_COMPLETE, FRAME_WAITING_TIMER_EXPIRY. -/

namespace Sys2Proof.Machine

/-- An accepted frame (R20), and the END flag (R21). -/
def State.acceptFrame (c : Port) (h : Header) (payload : List Byte) (s : State) : State :=
  let s := s.onPort c fun p =>
    { p with accepted := satInc p.accepted, consecBad := 0, waitTimer := some p.fwt }
  let s := if (s.chan c).port.feed = .live then s else s.feedBack c
  let s := s.frameArrival c { seq := h.seq, timecode := h.timecode, key := h.key, payload := payload }
  if h.ends then s.declareLost c .ended else s

/-- A good frame is FOREIGN or accepted (R19). -/
def State.goodFrame (c : Port) (h : Header) (payload : List Byte) (s : State) : State :=
  if (s.chan c).port.feedId = some h.feedId then s.acceptFrame c h payload
  else s.onPort c fun p => { p with foreign := satInc p.foreign }

/-- The sixteenth header byte has arrived: the header is judged (R17). -/
def State.judgeHeader (c : Port) (got : List Byte) (s : State) : State :=
  if headerGood got then s.onPort c fun p => { p with rx := .payload (parseHeader got) [] }
  else (s.onPort c fun p => { p with rx := .hunt [] }).corruptOutcome c

/-- The last check byte has arrived: the frame is judged (R18). -/
def State.judgeFrame (c : Port) (h : Header) (got : List Byte) (s : State) : State :=
  let payload := got.take h.length
  let s := s.onPort c fun p => { p with rx := .hunt [] }
  if crc32 payload = field got h.length 4 then s.goodFrame c h payload else s.corruptOutcome c

/-- Whether the port receives at all: OPEN (R15), and not held by carrier gating (R24). -/
def FeedPort.receives (p : FeedPort) : Bool := p.opened && (!p.gating || p.debPresence)

/-- One byte arrives on a lane and is handled by the receiver state (R15 to R18). -/
def State.laneByte (c : Port) (s : State) (b : Byte) : State :=
  if !(s.chan c).port.receives then s
  else
    match (s.chan c).port.rx with
    | .hunt seen =>
      let last := seen ++ [b]
      if last = syncMarker then s.onPort c fun p => { p with rx := .header [] }
      else s.onPort c fun p => { p with rx := .hunt (last.drop (last.length - 3)) }
    | .header got =>
      let got := got ++ [b]
      if got.length = 16 then s.judgeHeader c got else s.onPort c fun p => { p with rx := .header got }
    | .payload h got =>
      let got := got ++ [b]
      if got.length = h.length + 4 then s.judgeFrame c h got
      else s.onPort c fun p => { p with rx := .payload h got }

/-- Bytes arrive on a lane, in order. -/
def State.laneBytes (c : Port) (bytes : List Byte) (s : State) : State := bytes.foldl (State.laneByte c) s

/-- Whether bytes are the one byte that ends what a receiver has under assembly: the last of a bad header, which is a CORRUPT
outcome (R17, R22), or the last check byte of a frame (R18, R26). -/
def Receiver.endedBy (bytes : List Byte) (r : Receiver) : Bool :=
  match r, bytes with
  | .header got, [b] => got.length + 1 == 16 && !headerGood (got ++ [b])
  | .payload h got, [_] => got.length + 1 == h.length + 4
  | _, _ => false

/-- The receiver that bytes of a lane find. An expiry of the frame waiting timer has abandoned what was under assembly (R27);
a last byte that falls together with that expiry, and is taken right after it, still ends it (R22, R26; DESIGN CHOICE, safe,
log 31). -/
def FeedPort.receiverFor (x : LaneBytes) (p : FeedPort) : Receiver :=
  if x.together = true ∧ p.rx = .hunt [] ∧ p.interrupted.endedBy x.bytes = true then p.interrupted else p.rx

/-- Bytes of a lane reach its port (R15, R24): nothing is held any longer of what an earlier expiry interrupted. -/
def State.hearLane (c : Port) (x : LaneBytes) (s : State) : State :=
  if (s.chan c).port.receives then
    (s.onPort c fun p => { p with rx := p.receiverFor x, interrupted := .hunt [] }).laneBytes c x.bytes
  else s

/-- Expiry of a frame waiting timer (R26): nothing happens unless the timer has run out. What was under assembly is abandoned
by the declaration (R27), but for a last byte that falls together with the expiry (log 31). -/
def State.waitingExpiry (c : Port) (s : State) : State :=
  if Timer.due (s.chan c).port.waitTimer then
    let s := s.onPort c fun p => { p with waitTimer := none }
    if (s.chan c).port.feed = .live then
      State.declareLost c .silent (s.onPort c fun p => { p with interrupted := p.rx })
    else s
  else s

/-- SYNC_MARKER_FOUND (R16): the lane bytes up to the one that completes the marker. -/
def execSyncMarkerFound (port : Port) (bytes : List Byte) (s : State) : Host.Outcome State Fault Refusal :=
  .next (s.hearLane port { bytes := bytes, together := false })

/-- HEADER_JUDGED (R17): the lane bytes up to the sixteenth of the header. -/
def execHeaderJudged (port : Port) (bytes : LaneBytes) (s : State) : Host.Outcome State Fault Refusal :=
  .next (s.hearLane port bytes)

/-- FRAME_COMPLETE (R18): the lane bytes up to the last of the payload check. -/
def execFrameComplete (port : Port) (bytes : LaneBytes) (s : State) : Host.Outcome State Fault Refusal :=
  .next (s.hearLane port bytes)

/-- FRAME_WAITING_TIMER_EXPIRY (R26). -/
def execFrameWaitingTimerExpiry (port : Port) (s : State) : Host.Outcome State Fault Refusal :=
  .next (s.waitingExpiry port)

/-- HOLD_OVER_EXPIRY (R71): the channel is RECORDING and its hold-over counter has passed k; otherwise no expiry happens.
The tick at which the counter passes k settles the expiry itself (R70), so the command finds nothing left to do after it
(log 4). -/
def State.takeHoldOver (c : Port) (s : State) : State :=
  let t := (s.chan c).take
  if t.st = .recording ∧ t.holdOver > t.k then s.holdOverExpire c else s

/-- HOLD_OVER_EXPIRY (R71). -/
def execHoldOverExpiry (port : Port) (s : State) : Host.Outcome State Fault Refusal := .next (s.takeHoldOver port)

end Sys2Proof.Machine
end

