-- ==== Sys2Proof/Machine/Commands.lean ====
section
/-! DEFINITION. The cue-line commands: the receive filter (R165), addressing and payload check (R175), answers (R176), and
the ten command kinds. Each command's message may come through CUE_LINE_FRAME or as a row of its own (log 17). -/

namespace Sys2Proof.Machine

/-! ### Receive filter and addressing -/

/-- A received message is accepted (R165): not this station's own, and its target is ALL, this station, or a feed held by
a channel that is not IDLE. A disabled interface receives nothing (R170). -/
def State.accepts (m : Heard) (s : State) : Bool :=
  s.cue.enabled && s.status.station != some m.sender &&
    match m.target with
    | .all => true
    | .station v => s.status.station.map (BitVec.setWidth 16) == some v
    | .feed f => (s.holder f).isSome
    | .other => false

/-- How a command answers: the state, the reply code and the ADJUSTED flag (R176). -/
structure Taken where
  state : State
  code : ReplyCode
  adjusted : Bool

/-- A refused command changes nothing. -/
def State.refuse (code : ReplyCode) (s : State) : Taken := { state := s, code := code, adjusted := false }

/-- A command taken with code DONE. -/
def State.done (s : State) : Taken := { state := s, code := .done, adjusted := false }

/-- An accepted command (R175, R176): `need` bytes of payload, whether it acts when addressed to a feed or to ALL, the
channel field of its REPLY, and its effect. A message given by its own row leaves the interface's activity and its idle
count as they are, whatever they are (DESIGN CHOICE, unsafe, log 17). -/
def State.command (kind : Byte) (need : Nat) (viaFeed viaAll : Bool) (channel : Byte) (act : State → Taken) (m : Heard)
    (s : State) : State :=
  if s.accepts m then
    match m.target with
    | .station _ =>
      if m.payload.length < need then s.reply m.sender .badField false engineChannel kind
      else (act s).state.reply m.sender (act s).code (act s).adjusted channel kind
    | .feed _ => if viaFeed = true ∧ need ≤ m.payload.length then (act s).state else s
    | .all => if viaAll = true ∧ need ≤ m.payload.length then (act s).state else s
    | .other => s
  else s

/-- The channel field of a channel command's REPLY: the port value received (R176). -/
def portField (m : Heard) : Byte := m.payload.getD 0 0#8

/-- The channel a CUE, STOP or CUT acts on (R74): the holder of the feed it is addressed to, else the port it names. -/
def State.commandPort (m : Heard) (s : State) : Option Port :=
  match m.target with
  | .feed f => s.holder f
  | _ => parsePort m.payload

/-- Act on a channel; no channel is BAD PORT. -/
def State.onChannel (c : Option Port) (act : Port → State → Taken) (s : State) : Taken :=
  match c with
  | none => s.refuse .badPort
  | some c => act c s

/-! ### ARM and DISARM (R57 to R60) -/

/-- The port as ARM opens it (R29). -/
def FeedPort.open (feed : FeedId) (x : ChannelParams) (p : FeedPort) : FeedPort :=
  { p with
    opened := true, feedId := some feed, gating := x.gating, fwt := x.fwt, rx := .hunt [],
    interrupted := .hunt [], waitTimer := none, consecBad := 0, feed := .lost .silent, firstSinceArm := true, faultMark := false }

/-- The synchroniser's fresh start at ARM (R35): E keeps its value. -/
def Synchroniser.start (x : ChannelParams) (y : Synchroniser) : Synchroniser :=
  { y with w := x.w, p := x.p, g := x.g, st := .seeking, window := [], h := 0, repeatMark := false }

/-- The take controller at ARM (R59): the clip id and the next segment number keep their values. -/
def TakeController.arm (x : ChannelParams) (t : TakeController) : TakeController :=
  { t with
    st := .armed, segLen := x.segLen, k := x.k, twin := x.twin, buffer := none, active := none, cueEmpty := false,
    holdOver := 0 }

/-- The selector at ARM (R99). -/
def Selector.arm (x : ChannelParams) (y : Selector) : Selector :=
  { y with
    n := x.n, d := x.d, target := x.target, bucket := x.bucket, qMin := x.qMin, qMax := x.qMax, a := 0,
    fullness := 0 }

/-- A channel as an accepted ARM leaves it (R59), before its tally is evaluated. -/
def Channel.arm (feed : FeedId) (x : ChannelParams) (ch : Channel) : Channel :=
  { port := ch.port.open feed x, sync := ch.sync.start x, take := ch.take.arm x, sel := ch.sel.arm x }

/-- ARM, checked in the order of R57, with its parameters clamped (R58). -/
def State.arm (payload : List Byte) (s : State) : Taken :=
  let f := parseArm payload
  match parsePort payload with
  | none => s.refuse .badPort
  | some c =>
    if (s.chan c).take.st ≠ .idle then s.refuse .busy
    else if f.feed = 0#16 then s.refuse .badField
    else if (s.holder f.feed).isSome then s.refuse .conflict
    else
      let x := armParams f s.status.cfg.params
      { state := (s.setChan c ((s.chan c).arm f.feed (clampParams x))).retally c
        code := .done
        adjusted := decide (clampParams x ≠ x) }

/-- The close of a channel's port for DISARM or RESET CHANNEL, with the synchroniser and the take controller (R30, R51). -/
def State.closeChannel (c : Port) (s : State) : State :=
  ((s.onPort c FeedPort.close).onSync c Synchroniser.seek).onTake c TakeController.toIdle

/-- DISARM (R60). -/
def State.disarm (c : Port) (s : State) : Taken :=
  match (s.chan c).take.st with
  | .armed => ((s.closeChannel c).retally c).done
  | .recording => s.refuse .busy
  | .ending => s.refuse .busy
  | .idle => s.refuse .notArmed

/-! ### CUE, STOP, CUT, RESET CHANNEL (R61, R68, R69, R73) -/

/-- A cue with clip id 0 has no clip of its own: it needs TIE and a channel that is not ARMED (check 4 of R61). -/
def badCue (q : Cue) (st : ChannelState) : Bool := q.clip == 0#32 && (!q.tie || st == .armed)

/-- CUE (R61). -/
def State.cueCommand (q : Cue) (c : Port) (s : State) : Taken :=
  let t := (s.chan c).take
  if t.st = .idle then s.refuse .notArmed
  else if t.st = .ending then s.refuse .busy
  else if badCue q t.st then s.refuse .badField
  else if t.buffer.isSome then s.refuse .busy
  else (s.onTake c fun t => { t with buffer := some q, cueEmpty := false }).done

/-- STOP (R68). -/
def State.stopCommand (c : Port) (s : State) : Taken :=
  let t := (s.chan c).take
  match t.st with
  | .recording => ((s.onTake c fun t => { t with st := .ending, buffer := none }).retally c).done
  | .armed =>
    if t.buffer.isSome then (s.onTake c fun t => { t with buffer := none }).done else s.refuse .notArmed
  | .ending => s.refuse .busy
  | .idle => s.refuse .notArmed

/-- CUT (R69). -/
def State.cutCommand (c : Port) (s : State) : Taken :=
  let st := (s.chan c).take.st
  if st = .recording ∨ st = .ending then
    let s := s.closeOpen false c
    let s := (s.onTake c TakeController.endTakeNow).retally c
    (s.takeEnd .cut c).done
  else s.refuse .notArmed

/-- Whether RESET CHANNEL frees a record of its channel (R96). -/
def freedByReset (st : RecState) : Bool :=
  match st with
  | .opened => true
  | .closing => true
  | .deciding => true
  | .held => true
  | .free => false
  | .queued => false
  | .writing => false
  | .indexing => false

/-- RESET CHANNEL on one record (R96, R114). -/
def State.resetRecord (c : Port) (s : State) (i : RecIx) : State :=
  if (s.record i).channel = c ∧ freedByReset (s.record i).st = true then (s.withdraw i).freeRecord i else s

/-- RESET CHANNEL (R73). -/
def State.resetChannelCommand (c : Port) (s : State) : Taken :=
  let s := s.closeChannel c
  let s := s.onPort c fun p => { p with faultMark := false }
  let s := s.onTake c fun t => { t with cueEmpty := false }
  ((allRecs.foldl (State.resetRecord c) s).retally c).done

/-! ### Engine-wide commands -/

/-- PRESET (R10). -/
def State.presetCommand (v : HouseCount) (s : State) : Taken :=
  State.done { s with ref := { s.ref with preset := some v } }

/-- RESUME STORE (R150). -/
def State.resumeCommand (s : State) : Taken :=
  if s.storeHalt then s.refuse .halted
  else if s.link.st ≠ .ready then s.refuse .busy
  else if s.link.latch then s.done
  else (State.issue { s with link := { s.link with latch := true } }).done

/-- Give up a record that is WRITING or INDEXING (step 2 of R151). -/
def State.giveUp (s : State) (i : RecIx) : State :=
  if (s.record i).st = .writing ∨ (s.record i).st = .indexing then
    ((s.transmit (.unstored (s.record i).key)).freeRecord i).leaveWriteQueue i
  else s

/-- RESET STORE (R151). -/
def State.resetStoreCommand (s : State) : Taken :=
  if s.link.st = .clearing then s.refuse .busy
  else
    let s := { s with link := { s.link with tags := Vector.replicate 16 .free } }
    let s := s.link.queue.foldl State.giveUp s
    State.done
      { s with
        storeOut := s.storeOut ++ [.clear]
        link := { s.link with latch := false, st := .clearing, clearTimer := some s.status.cfg.swt } }

/-! ### The messages of the ten kinds -/

/-- ARM heard. -/
def State.hearArm (m : Heard) (s : State) : State :=
  s.command 0x10#8 23 false false (portField m) (State.arm m.payload) m

/-- DISARM heard. -/
def State.hearDisarm (m : Heard) (s : State) : State :=
  s.command 0x11#8 1 false false (portField m) (State.onChannel (parsePort m.payload) State.disarm) m

/-- CUE heard. -/
def State.hearCue (m : Heard) (s : State) : State :=
  s.command 0x12#8 8 true true (portField m)
    (State.onChannel (s.commandPort m) (State.cueCommand (parseCue m.payload))) m

/-- STOP heard. -/
def State.hearStop (m : Heard) (s : State) : State :=
  s.command 0x13#8 1 true true (portField m) (State.onChannel (s.commandPort m) State.stopCommand) m

/-- CUT heard. -/
def State.hearCut (m : Heard) (s : State) : State :=
  s.command 0x14#8 1 true true (portField m) (State.onChannel (s.commandPort m) State.cutCommand) m

/-- RESET CHANNEL heard. -/
def State.hearResetChannel (m : Heard) (s : State) : State :=
  s.command 0x15#8 1 false false (portField m) (State.onChannel (parsePort m.payload) State.resetChannelCommand) m

/-- PRESET heard (R10): taken once for the engine. -/
def State.hearPreset (m : Heard) (s : State) : State :=
  s.command 0x16#8 4 true true engineChannel (State.presetCommand (BitVec.ofNat 32 (field m.payload 0 4))) m

/-- RESUME STORE heard. -/
def State.hearResumeStore (m : Heard) (s : State) : State :=
  s.command 0x17#8 0 false true engineChannel State.resumeCommand m

/-- RESET STORE heard. -/
def State.hearResetStore (m : Heard) (s : State) : State :=
  s.command 0x18#8 0 false true engineChannel State.resetStoreCommand m

/-- The engine STATUS of a QUERY (R179): snapshot, latches cleared, counters cleared on request, both parts queued. -/
def State.queryEngine (dest : Station) (clear : Bool) (s : State) : State :=
  let part0 := s.engineSnapshot
  let part1 := s.counterSnapshot
  let s := s.clearLatches
  let s := if clear then s.clearEngineCounters else s
  (s.transmit (.engineStatus dest part0)).transmit (.engineCounters dest part1)

/-- The channel STATUS of a QUERY (R179). -/
def State.queryChannel (dest : Station) (clear : Bool) (c : Port) (s : State) : State :=
  let v := s.channelSnapshot c
  let s := if clear then s.clearChannelCounters c else s
  s.transmit (.channelStatus dest v)

/-- QUERY heard (R175, R179): taken only when addressed to this station. -/
def State.hearQuery (m : Heard) (s : State) : State :=
  if s.accepts m then
    match m.target with
    | .station _ =>
      if m.payload.length < 2 then s.reply m.sender .badField false engineChannel 0x19#8
      else
        let clear := field m.payload 1 1 != 0
        if field m.payload 0 1 = 0x80 then s.queryEngine m.sender clear
        else
          match parsePort m.payload with
          | some c => s.queryChannel m.sender clear c
          | none => s.reply m.sender .badPort false engineChannel 0x19#8
    | _ => s
  else s

/-- A message of unknown kind heard (R177). -/
def State.hearUnknown (kind : Byte) (m : Heard) (s : State) : State :=
  if s.accepts m then
    match m.target with
    | .station _ => s.reply m.sender .unknown false engineChannel kind
    | _ => s
  else s

/-- ARM (R57 to R59). -/
def execArm (m : Heard) (s : State) : Host.Outcome State Fault Refusal := .next (s.hearArm m)

/-- DISARM (R60). -/
def execDisarm (m : Heard) (s : State) : Host.Outcome State Fault Refusal := .next (s.hearDisarm m)

/-- CUE (R61). -/
def execCue (m : Heard) (s : State) : Host.Outcome State Fault Refusal := .next (s.hearCue m)

/-- STOP (R68). -/
def execStop (m : Heard) (s : State) : Host.Outcome State Fault Refusal := .next (s.hearStop m)

/-- CUT (R69). -/
def execCut (m : Heard) (s : State) : Host.Outcome State Fault Refusal := .next (s.hearCut m)

/-- RESET CHANNEL (R73). -/
def execResetChannel (m : Heard) (s : State) : Host.Outcome State Fault Refusal := .next (s.hearResetChannel m)

/-- PRESET (R10). -/
def execPreset (m : Heard) (s : State) : Host.Outcome State Fault Refusal := .next (s.hearPreset m)

/-- RESUME STORE (R150). -/
def execResumeStore (m : Heard) (s : State) : Host.Outcome State Fault Refusal := .next (s.hearResumeStore m)

/-- RESET STORE (R151). -/
def execResetStore (m : Heard) (s : State) : Host.Outcome State Fault Refusal := .next (s.hearResetStore m)

/-- QUERY (R179). -/
def execQuery (m : Heard) (s : State) : Host.Outcome State Fault Refusal := .next (s.hearQuery m)

end Sys2Proof.Machine
end

