-- ==== Sys2Proof/Machine/Arbitration.lean ====
section
/-! DEFINITION. The Copy Arbitration Unit: twin messages heard (R119 to R122, R128 to R130, R133 to R135), the decision
(R123 to R125), takeover (R131, R132), and the drain timer's command. -/

namespace Sys2Proof.Machine

/-- The key of a twin message that reaches the unit: accepted, addressed to a feed (R119), and long enough (R185). -/
def State.twinKey (need : Nat) (m : Heard) (s : State) : Option Key :=
  match m.target with
  | .feed _ => if s.accepts m = true ∧ need ≤ m.payload.length then some (parseKey m.payload) else none
  | _ => none

/-! ### Reports (R121, R122) -/

/-- One copy ranks before another: lower damage, and at equal damage the lower station (R124). -/
def ranksBefore (a b : Peer) : Bool :=
  decide (a.damage < b.damage) || (decide (a.damage = b.damage) && decide (a.station < b.station))

/-- Insert an entry at its rank. -/
def insertPeer (p : Peer) (l : List Peer) : List Peer :=
  match l with
  | [] => [p]
  | x :: rest => if ranksBefore p x then p :: x :: rest else x :: insertPeer p rest

/-- Enter a report in a peer list (R122): a second report of a station is ignored; of four entries the worst is dropped. -/
def enterPeer (p : Peer) (l : List Peer) : List Peer :=
  if l.any fun x => x.station == p.station then l else (insertPeer p l).take 3

/-- Whether a record is still open to the decision (R121). -/
def takesReports (st : RecState) : Bool :=
  match st with
  | .opened => true
  | .closing => true
  | .deciding => true
  | .held => false
  | .queued => false
  | .writing => false
  | .indexing => false
  | .free => false

/-- A peer report for a key (R120, R121). -/
def State.peerReport (key : Key) (p : Peer) (s : State) : State :=
  match s.findKey key with
  | none => { s with arb := { s.arb with unmatched := satInc s.arb.unmatched } }
  | some i =>
    let r := s.record i
    if !r.twin then s
    else if takesReports r.st then s.onRec i fun r => { r with peers := enterPeer p r.peers }
    else { s with arb := { s.arb with lateReport := satInc s.arb.lateReport } }

/-- REPORT heard. -/
def State.hearReport (m : Heard) (s : State) : State :=
  match s.twinKey 17 m with
  | some key => s.peerReport key { station := m.sender, damage := field m.payload 14 2 }
  | none => s

/-! ### Takeover (R132) -/

/-- A HELD record takes over (R132). -/
def State.takeOver (i : RecIx) (s : State) : State :=
  let s := s.onRec i fun r => { r with commitTimer := none, ahead := [] }
  let s := s.transmit (.takeover (s.record i).key)
  let s := s.onRec i fun r => { r with takenOver := true }
  let s := s.joinWriteQueue i
  { s with arb := { s.arb with takeovers := satInc s.arb.takeovers } }

/-- Expiry of a HELD record's commit timer (R127, R131). While the link is FAILED no commit timer counts, so that none expires
and no segment is taken over by one (R153; log 32). -/
def State.commitExpiry (i : RecIx) (s : State) : State :=
  if (s.record i).st = .held ∧ Timer.due (s.record i).commitTimer = true ∧ s.link.st ≠ .failed then s.takeOver i else s

/-! ### The decision (R123 to R125) -/

/-- This station's copy of a record, as a peer would rank it (R124). -/
def State.ownCopy (r : Record) (s : State) : Peer := { station := s.stationNumber, damage := r.damage }

/-- The peer entries that rank before a record, in rank order (R124). -/
def State.peersAhead (r : Record) (s : State) : List Peer := r.peers.filter fun p => ranksBefore p (s.ownCopy r)

/-- The decision (R125). -/
def State.decideRecord (i : RecIx) (s : State) : State :=
  let better := s.peersAhead (s.record i)
  let s := s.onRec i fun r =>
    { r with windowTimer := none, decisionTime := some s.ref.count, peers := [] }
  if better = [] then s.joinWriteQueue i
  else
    s.onRec i fun r =>
      { r with
        st := .held, ahead := better.map Peer.station, commitTimer := some (s.status.cfg.cw * better.length) }

/-- Expiry of a report window (R123, R125). -/
def State.windowExpiry (i : RecIx) (s : State) : State :=
  if (s.record i).st = .deciding ∧ Timer.due (s.record i).windowTimer = true then s.decideRecord i else s

/-! ### Announcements heard (R128 to R130, R133 to R135) -/

/-- STORED heard for a key, by the record's state (R133). -/
def State.storedFor (key : Key) (s : State) : State :=
  match s.findKey key with
  | none => s
  | some i =>
    match (s.record i).st with
    | .opened => s.onRec i fun r => { r with storedElsewhere := true }
    | .closing => s.onRec i fun r => { r with storedElsewhere := true }
    | .deciding => s.freeRecord i
    | .held => s.freeRecord i
    | .queued => (s.leaveWriteQueue i).freeRecord i
    | .writing => s
    | .indexing => s
    | .free => s

/-- STORED heard. -/
def State.hearStored (m : Heard) (s : State) : State :=
  match s.twinKey 12 m with
  | some key => s.storedFor key
  | none => s

/-- The HELD record of a key that waits on a station (R129, R130). -/
def State.waitsOn (key : Key) (station : Station) (s : State) : Option RecIx :=
  (s.findKey key).filter fun i => (s.record i).st == .held && (s.record i).ahead.contains station

/-- UNSTORED heard for a key (R129). An ahead list that it empties lets the record take over at once, whatever the link state
and the enable latch: that a station with a FAILED link takes over no segment (R153), and that one whose store cannot take
writes does not (R127), is read as what follows from commit timers that do not count (DESIGN CHOICE, unsafe, log 32). -/
def State.unstoredFor (key : Key) (station : Station) (s : State) : State :=
  match s.waitsOn key station with
  | none => s
  | some i =>
    let s := s.onRec i fun r => { r with ahead := r.ahead.filter (· != station) }
    if (s.record i).ahead = [] then s.takeOver i
    else s.onRec i fun r => { r with commitTimer := some s.status.cfg.cw }

/-- UNSTORED heard. -/
def State.hearUnstored (m : Heard) (s : State) : State :=
  match s.twinKey 12 m with
  | some key => s.unstoredFor key m.sender
  | none => s

/-- TAKEOVER heard for a key (R130). -/
def State.takeoverFor (key : Key) (station : Station) (s : State) : State :=
  match s.waitsOn key station with
  | none => s
  | some i => s.onRec i fun r => { r with commitTimer := some s.status.cfg.cw }

/-- TAKEOVER heard. -/
def State.hearTakeover (m : Heard) (s : State) : State :=
  match s.twinKey 12 m with
  | some key => s.takeoverFor key m.sender
  | none => s

/-- REPORT_HEARD (R121). -/
def execReportHeard (m : Heard) (s : State) : Host.Outcome State Fault Refusal := .next (s.hearReport m)

/-- REPORT_WINDOW_EXPIRY (R125). -/
def execReportWindowExpiry (record : RecIx) (s : State) : Host.Outcome State Fault Refusal :=
  .next (s.windowExpiry record)

/-- STORED_HEARD (R133). A STORED that fell together with the event before it was taken before the issue that this event
allowed, so the issue follows here (R134; log 20). -/
def State.takeStored (m : HeardStored) (s : State) : State :=
  if m.together then (s.hearStored m.heard).issue else s.hearStored m.heard

/-- STORED_HEARD (R133). -/
def execStoredHeard (m : HeardStored) (s : State) : Host.Outcome State Fault Refusal := .next (s.takeStored m)

/-- UNSTORED_HEARD (R129). -/
def execUnstoredHeard (m : Heard) (s : State) : Host.Outcome State Fault Refusal := .next (s.hearUnstored m)

/-- TAKEOVER_HEARD (R130). -/
def execTakeoverHeard (m : Heard) (s : State) : Host.Outcome State Fault Refusal := .next (s.hearTakeover m)

/-- COMMIT_TIMER_EXPIRY (R131). -/
def execCommitTimerExpiry (record : RecIx) (s : State) : Host.Outcome State Fault Refusal :=
  .next (s.commitExpiry record)

/-- A drain timer's expiry is taken for a CLOSING record whose timer has run out (R112, R113). -/
def State.takeDrain (i : RecIx) (s : State) : State :=
  if (s.record i).st = .closing ∧ Timer.due (s.record i).drainTimer = true then s.drainExpiry i else s

/-- DRAIN_TIMER_EXPIRY (R113). -/
def execDrainTimerExpiry (record : RecIx) (s : State) : Host.Outcome State Fault Refusal :=
  .next (s.takeDrain record)

/-- CODER_COMPLETION (R111). -/
def execCoderCompletion (coded : List Byte) (s : State) : Host.Outcome State Fault Refusal :=
  .next (s.complete coded)

end Sys2Proof.Machine
end

