-- ==== Sys2Proof/Machine/Line.lean ====
section
/-! DEFINITION. The Cue Line Interface on the line: idle (R159), sending (R160 to R162, R168), a stuck line (R163),
receiving (R164) and the passing on of an accepted message to the block that owns its kind (R165, R177). -/

namespace Sys2Proof.Machine

/-- Recessive bit times that make the line idle (R159). -/
def idleBits : Nat := 11

/-- Recessive bit times of an end field (R157). -/
def endBits : Nat := 8

/-- The interface waits for idle, with recessive bit times counted (R159). -/
def State.waitIdle (n : Nat) (s : State) : State :=
  { s with cue := { s.cue with activity := .waiting (min idleBits n), onLine := none } }

/-- At idle with the queue not empty, the head message goes on the line (R159, R168). -/
def State.idleSend (gap : Nat) (s : State) : State :=
  match s.cue.activity with
  | .waiting n =>
    if s.cue.enabled then
      if n + gap ≥ idleBits then
        match s.cue.queue with
        | e :: _ => { s with cue := { s.cue with activity := .sending, onLine := some e.age } }
        | [] => s.waitIdle (n + gap)
      else s.waitIdle (n + gap)
    else s
  | .receiving => s
  | .sending => s

/-- The message on the line leaves the transmit queue (R161, R162). -/
def State.removeSent (s : State) : State :=
  match s.cue.onLine with
  | some a => { s with cue := { s.cue with queue := dropAge a s.cue.queue } }
  | none => s

/-- Lost arbitration (R160): the message stays queued and the interface receives the winning frame. -/
def State.loseArbitration (s : State) : State :=
  if s.cue.activity = .sending then { s with cue := { s.cue with activity := .receiving, onLine := none } } else s

/-- The message on the line is abandoned and CLASH counted (R161). -/
def State.abandonMessage (s : State) : State :=
  let s := s.removeSent
  { s with cue := { s.cue with clash := satInc s.cue.clash } }

/-- A clash (R161). The interface waits for idle. The command carries no level: the gap of the next command on the line
counts the bit times read recessive since the last dominant level, those up to and at the clash among them (R159; log 15,
log 30). -/
def State.takeClash (s : State) : State :=
  if s.cue.activity = .sending then s.abandonMessage.waitIdle 0 else s

/-- The frame of the message on the line (R157). -/
def State.sentFrame (s : State) : List (List Bool) :=
  match s.cue.onLine with
  | none => []
  | some a =>
    match s.cue.queue.find? fun e => e.age == a with
    | none => []
    | some e => [frameBits (frameFields e.cls s.stationNumber e.msg.kind e.msg.target e.msg.payload)]

/-- A message has been sent whole (R162). -/
def State.takeSent (s : State) : State :=
  if s.cue.activity = .sending then
    let s := { s with lineOut := s.lineOut ++ s.sentFrame }
    s.removeSent.waitIdle endBits
  else s

/-- Add 1 to RX BAD (R164). -/
def State.countRxBad (s : State) : State := { s with cue := { s.cue with rxBad := satInc s.cue.rxBad } }

/-- A dominant run passes 64 bit times (R163). A message on the line has by then lost arbitration or clashed, by where the
bit lay that it sent recessive and read dominant, and a frame being received has failed its stuffing check; what of this
has not been taken yet is taken here (log 16). While the interface waits nothing is counted, also at idle, where the run's
first bit is a start bit (R159): that frame and its RX BAD (R164) come with a CUE_LINE_FRAME before this command (DESIGN
CHOICE, unsafe, log 16). -/
def State.takeStuck (inArbitration : Bool) (s : State) : State :=
  if s.cue.enabled then
    let s := { s with cue := { s.cue with stuckLatch := true } }
    let s :=
      match s.cue.activity with
      | .waiting _ => s
      | .receiving => s.countRxBad
      | .sending => if inArbitration then s.countRxBad else s.abandonMessage
    s.waitIdle 0
  else s

/-! ### Receiving -/

/-- An accepted message is passed to the block that owns its kind (R165); a kind of section 11.3 that no block takes is
ignored, and any other kind is unknown (R177). Each owner applies the receive filter. -/
def State.takeMessage (kind : Byte) (m : Heard) (s : State) : State :=
  if kind = 0x10#8 then s.hearArm m
  else if kind = 0x11#8 then s.hearDisarm m
  else if kind = 0x12#8 then s.hearCue m
  else if kind = 0x13#8 then s.hearStop m
  else if kind = 0x14#8 then s.hearCut m
  else if kind = 0x15#8 then s.hearResetChannel m
  else if kind = 0x16#8 then s.hearPreset m
  else if kind = 0x17#8 then s.hearResumeStore m
  else if kind = 0x18#8 then s.hearResetStore m
  else if kind = 0x19#8 then s.hearQuery m
  else if kind = 0x20#8 then s
  else if kind = 0x21#8 then s
  else if kind = 0x22#8 then s
  else if kind = 0x30#8 then s.hearReport m
  else if kind = 0x31#8 then s.hearStored m
  else if kind = 0x32#8 then s.hearUnstored m
  else if kind = 0x33#8 then s.hearTakeover m
  else s.hearUnknown kind m

/-- Recessive bit times at the end of a run of bits. -/
def trailingRecessive (bits : List Bool) : Nat := (bits.reverse.takeWhile id).length

/-- Recessive bit times that count toward idle when the bits of a frame that was heard from its start bit on have passed: those
since the last dominant level, and where the frame has gone through to its end field, none from before that field, so that three more
follow the 8 of the field (R159; DESIGN CHOICE, unsafe, log 15). A frame that a fault ends earlier has no end field to count
from (R164). -/
def countAfter (bits : List Bool) : Nat :=
  match frameParts bits with
  | none => trailingRecessive bits
  | some (_, tail) => trailingRecessive (tail.take (tail.length - linePad))

/-- A frame heard from its start bit on (R164): discarded and counted RX BAD, or received whole. After it the interface
waits for idle (R159). -/
def State.hearFrame (bits : List Bool) (s : State) : State :=
  match receiveFrame bits with
  | none => s.countRxBad.waitIdle (countAfter bits)
  | some f => (s.waitIdle (countAfter bits)).takeMessage f.kind f.heard

/-- A frame passes on the line (R159, R164): it is heard from idle, or as the winner of a lost arbitration. One that begins at
idle is heard although a message waits in the transmit queue, which then waits for the next idle: by R159 and R168 the
interface is sending by then (LINE_IDLE_SEND), so this event comes only where that command has not been given (DESIGN
CHOICE, unsafe, log 34). Bits that pass while the line is not idle begin no frame for this station, the rest of a frame after
a clash or a fault among them: only their recessive run counts (R159). -/
def State.lineFrame (gap : Nat) (bits : List Bool) (s : State) : State :=
  if s.cue.enabled then
    let lead := gap + (bits.takeWhile id).length
    let body := bits.dropWhile id
    match s.cue.activity with
    | .sending => s
    | .receiving => s.hearFrame body
    | .waiting n =>
      if body = [] then s.waitIdle (n + lead)
      else if n + lead ≥ idleBits then s.hearFrame body
      else s.waitIdle (trailingRecessive body)
  else s

/-- LINE_IDLE_SEND (R168). -/
def execLineIdleSend (gap : Nat) (s : State) : Host.Outcome State Fault Refusal := .next (s.idleSend gap)

/-- LOST_ARBITRATION (R160). -/
def execLostArbitration (s : State) : Host.Outcome State Fault Refusal := .next s.loseArbitration

/-- CLASH (R161). -/
def execClash (s : State) : Host.Outcome State Fault Refusal := .next s.takeClash

/-- MESSAGE_SENT (R162). -/
def execMessageSent (s : State) : Host.Outcome State Fault Refusal := .next s.takeSent

/-- LINE_STUCK (R163). -/
def execLineStuck (inArbitration : Bool) (s : State) : Host.Outcome State Fault Refusal :=
  .next (s.takeStuck inArbitration)

/-- CUE_LINE_FRAME (R164). -/
def execCueLineFrame (gap : Nat) (bits : List Bool) (s : State) : Host.Outcome State Fault Refusal :=
  .next (s.lineFrame gap bits)

/-- UNKNOWN_KIND (R177): a message of a kind that is not unknown goes to the block that owns its kind. -/
def execUnknownKind (kind : Byte) (m : Heard) (s : State) : Host.Outcome State Fault Refusal :=
  .next (s.takeMessage kind m)

end Sys2Proof.Machine
end

