-- ==== Sys2Proof/Machine/Reference.lean ====
section
/-! DEFINITION. The Reference Unit and the house tick: R1 to R13, and what every block does at a tick (R12). -/

namespace Sys2Proof.Machine

/-! ### The house tick -/

/-- The timers of a record that count house ticks; the commit timer counts while the enable latch is set (R127). -/
def Record.tickTimers (latch : Bool) (r : Record) : Record :=
  { r with
    drainTimer := Timer.tick r.drainTimer
    windowTimer := Timer.tick r.windowTimer
    commitTimer := if latch then Timer.tick r.commitTimer else r.commitTimer }

/-- The store waiting timer of a tag counts whatever the latch (R148). -/
def TagState.tickTimer (t : TagState) : TagState :=
  match t with
  | .outstanding r n => .outstanding r (Timer.tick n)
  | x => x

/-- The frame waiting timer of a channel counts (R26); nothing falls together any longer with an expiry before this tick. -/
def Channel.tickTimer (x : Channel) : Channel :=
  { x with port := { x.port with waitTimer := Timer.tick x.port.waitTimer, interrupted := .hunt [] } }

/-- Every timer that counts house ticks counts this one (R12). -/
def State.tickTimers (s : State) : State :=
  { s with
    chans := s.chans.map Channel.tickTimer
    pool := { s.pool with records := s.pool.records.map (Record.tickTimers s.link.latch) }
    link := { s.link with tags := s.link.tags.map TagState.tickTimer, clearTimer := Timer.tick s.link.clearTimer } }

/-- One part of a tick (R13). An expiry that falls at the tick is taken where the order of the tick names it, and what it
reads as the house count is the count of the tick (R9). -/
def State.tickPart (t : TickInput) (presetTick : Bool) (s : State) (part : TickPart) : State :=
  match part with
  | .presence c => s.samplePresence (t.presence.getLsbD c.val) c
  | .placement c => s.takeTick presetTick c
  | .tally c => s.tallyStep c
  | .waiting c => s.waitingExpiry c
  | .lane c b => s.hearLane c { bytes := [b], together := true }
  | .drain i => s.takeDrain i
  | .window i => s.windowExpiry i
  | .commit i => s.commitExpiry i
  | .store k => s.storeExpiry k
  | .clear => s.clearExpiry

/-- The work of a tick in one channel (R13). -/
def channelParts (c : Port) : List TickPart := [.presence c, .placement c, .tally c]

/-- The parts of a tick in order: those named, then the work of the channels that is left, in ascending order (log 5). -/
def tickParts (t : TickInput) : List TickPart := (t.order ++ allPorts.flatMap channelParts).eraseDups

/-- The count moves on, or takes the pending preset (R9). -/
def RefUnit.advance (r : RefUnit) : RefUnit := { r with count := r.preset.getD (r.count + 1#32), preset := none }

/-- A house tick (R9 to R13): the count, the timers, then every part of the tick in its order. -/
def State.houseTick (t : TickInput) (s : State) : State :=
  let presetTick := s.ref.preset.isSome
  let s := { s with ref := s.ref.advance }
  (tickParts t).foldl (State.tickPart t presetTick) s.tickTimers

/-! ### Pulses (R2 to R8) -/

/-- A measured interval in whole microseconds (R2). -/
def RefUnit.interval (time : Nat) (r : RefUnit) : Nat := clamp 1 16777215 (time - r.measStart.getD time)

/-- Interval capture (R2). -/
def RefUnit.capture (time : Nat) (r : RefUnit) : RefUnit :=
  { r with prev := r.cur, cur := r.interval time, measStart := some time }

/-- The loss deadline starts, set to 1.5 captures from an instant (R4, R5, R8), in half microseconds. -/
def RefUnit.startDeadline (time : Nat) (r : RefUnit) : RefUnit := { r with deadline := some (2 * time + 3 * r.cur) }

/-- The last tick becomes an instant. -/
def RefUnit.ticked (time : Nat) (r : RefUnit) : RefUnit := { r with lastTick := some time }

/-- A pulse in FLYWHEEL is absorbed when less than half a capture has passed since the last tick (R8). -/
def RefUnit.absorbs (time : Nat) (r : RefUnit) : Bool := decide (2 * (time - r.lastTick.getD 0) < r.cur)

/-- The return of the reference (R8): LOCKED, the schedule stopped, the pulse the new measurement start. -/
def RefUnit.lockBack (time : Nat) (r : RefUnit) : RefUnit :=
  RefUnit.startDeadline time { r with st := .locked, flywheel := false, measStart := some time }

/-- A real pulse (R3, R4, R5, R8). REF BACK of a pulse taken as a tick is queued after all the notices that the channels
raise at that tick: R8 fixes the count it carries and not its place among them (DESIGN CHOICE, unsafe, log 28). -/
def State.realPulse (time : Nat) (t : TickInput) (s : State) : State :=
  match s.ref.st with
  | .waiting =>
    State.houseTick t { s with ref := { s.ref with st := .locking, measStart := some time, lastTick := some time } }
  | .locking =>
    let r := { s.ref.capture time with st := .locked }
    State.houseTick t { s with ref := (r.ticked time).startDeadline time }
  | .locked =>
    let r := s.ref.capture time
    State.houseTick t { s with ref := (r.ticked time).startDeadline time }
  | .flywheel =>
    let s' := { s with ref := s.ref.lockBack time }
    if s.ref.absorbs time then s'.engineNotice .refBack 0x00#8
    else (State.houseTick t { s' with ref := s'.ref.ticked time }).engineNotice .refBack 0x00#8

/-- An edge of the reference input (R1): ignored until the engine is running. -/
def State.pulse (time : Nat) (t : TickInput) (s : State) : State := if s.running then s.realPulse time t else s

/-- Whether the loss deadline has passed at an instant (R6). An instant past the deadline is accepted, and is then the last
tick, though R6 makes the tick at the deadline itself (DESIGN CHOICE, unsafe, log 6). -/
def RefUnit.deadlinePassed (time : Nat) (r : RefUnit) : Bool :=
  match r.deadline with
  | some d => r.st == .locked && decide (d ≤ 2 * time)
  | none => false

/-- Expiry of the loss deadline (R6). REF LOST is queued after all the notices that the channels raise at the entry tick:
R6 and R178 do not fix its place among them (DESIGN CHOICE, unsafe, log 28). -/
def State.lossOfReference (time : Nat) (t : TickInput) (s : State) : State :=
  if s.ref.deadlinePassed time then
    let r := { s.ref with st := .flywheel, deadline := none, lostLatch := true, flywheel := true }
    (State.houseTick t { s with ref := r.ticked time }).engineNotice .refLost 0x00#8
  else s

/-- Whether the flywheel schedule makes a tick at an instant: one current capture has passed since the last (R7). An instant
past the due moment is accepted, and is then the last tick, which shifts the phase of the schedule (DESIGN CHOICE, unsafe,
log 6). -/
def RefUnit.flywheelDue (time : Nat) (r : RefUnit) : Bool :=
  r.st == .flywheel && r.flywheel && decide (r.lastTick.getD 0 + r.cur ≤ time)

/-- A flywheel tick (R7). -/
def State.flywheelStep (time : Nat) (t : TickInput) (s : State) : State :=
  if s.ref.flywheelDue time then State.houseTick t { s with ref := s.ref.ticked time } else s

/-- REFERENCE_PULSE (R1). -/
def execReferencePulse (time : Nat) (tick : TickInput) (s : State) : Host.Outcome State Fault Refusal :=
  .next (s.pulse time tick)

/-- LOSS_DEADLINE_EXPIRY (R6): nothing happens before the deadline has passed. -/
def execLossDeadlineExpiry (time : Nat) (tick : TickInput) (s : State) : Host.Outcome State Fault Refusal :=
  .next (s.lossOfReference time tick)

/-- FLYWHEEL_TICK (R7): nothing happens before it is due. -/
def execFlywheelTick (time : Nat) (tick : TickInput) (s : State) : Host.Outcome State Fault Refusal :=
  .next (s.flywheelStep time tick)

end Sys2Proof.Machine
end

