-- ==== Sys2Proof/Machine/StartUp.lean ====
section
/-! DEFINITION. Reset and start-up: assertion and release of RESET (R14 and the reset rules of every chapter; R171), and
the configuration read (R172 to R174). -/

namespace Sys2Proof.Machine

/-- Every block in its reset state (R14, R33, R55, R76, R98, R117, R138, R155, R170, R183). The inputs keep their levels,
what has left the engine has left, and waiting commands go on waiting (log 10, log 14). -/
def State.assertReset (s : State) : State :=
  { State.reset with
    storeHalt := s.storeHalt, storeOut := s.storeOut, lineOut := s.lineOut, pending := s.pending }

/-- Release of RESET (step 1 of R171): the straps are read. -/
def State.releaseReset (straps : Station) (s : State) : State :=
  if s.status.phase = .inReset then
    { s with status := { s.status with phase := .startingUp, station := some straps } }
  else s

/-- A channel takes its default parameters, and its tally output is driven off (step 1 of R174). -/
def Channel.configure (x : ChannelParams) (activeLow : Bool) (ch : Channel) : Channel :=
  { port := { ch.port with gating := x.gating, fwt := x.fwt, tallyOut := tallyLevel activeLow false }
    sync := { ch.sync with w := x.w, p := x.p, g := x.g }
    take := { ch.take with segLen := x.segLen, k := x.k, twin := x.twin }
    sel :=
      { ch.sel with
        n := x.n, d := x.d, target := x.target, bucket := x.bucket, qMin := x.qMin, qMax := x.qMax } }

/-- The end of start-up (R174): the configuration in force, the interface enabled, START, the STORE-HALT level. -/
def State.endStartUp (cfg : Configuration) (source : Source) (s : State) : State :=
  let s := { s with
    chans := s.chans.map (Channel.configure cfg.params cfg.activeLow)
    cue := { s.cue with enabled := true, activity := .waiting 0 }
    status :=
      { s.status with
        phase := .running, cfg := cfg, source := some source,
        defaultedLatch := s.status.defaultedLatch || decide (source = Source.defaulted) } }
  let s := s.notice .start source.reason engineChannel 0#32
  if s.storeHalt then s.haltStore reasonLine else s

/-- The image has been read (R172): a good one gives the configuration, a bad one the built-in defaults. -/
def State.configurationRead (image : List Byte) (s : State) : State :=
  if s.status.phase = .startingUp then
    if imageGood image then s.endStartUp (parseImage image) .loaded
    else s.endStartUp builtInConfiguration .defaulted
  else s

/-- The image has not been read in time (R172). -/
def State.configurationMissing (s : State) : State :=
  if s.status.phase = .startingUp then s.endStartUp builtInConfiguration .defaulted else s

/-- POWER_ON_RESET (R14). -/
def execPowerOnReset (s : State) : Host.Outcome State Fault Refusal := .next s.assertReset

/-- RESET_RELEASE (R171). -/
def execResetRelease (straps : Station) (s : State) : Host.Outcome State Fault Refusal :=
  .next (s.releaseReset straps)

/-- CONFIGURATION_READ_COMPLETE (R172). -/
def execConfigurationReadComplete (image : List Byte) (s : State) : Host.Outcome State Fault Refusal :=
  .next (s.configurationRead image)

/-- CONFIGURATION_READ_TIMEOUT (R172). -/
def execConfigurationReadTimeout (s : State) : Host.Outcome State Fault Refusal := .next s.configurationMissing

end Sys2Proof.Machine
end

