-- ==== Sys2Proof/Machine/Dispatch.lean ====
section
/-! DEFINITION. One arm for each command: a direct call of its meaning. -/

namespace Sys2Proof.Machine

/-- The effect of a command on everything but the queue. -/
def exec (i : Instr) (s : State) : Host.Outcome State Fault Refusal :=
  match i with
  | .powerOnReset => Sys2Proof.Machine.execPowerOnReset s
  | .resetRelease straps => Sys2Proof.Machine.execResetRelease straps s
  | .configurationReadComplete image => Sys2Proof.Machine.execConfigurationReadComplete image s
  | .configurationReadTimeout => Sys2Proof.Machine.execConfigurationReadTimeout s
  | .referencePulse time tick => Sys2Proof.Machine.execReferencePulse time tick s
  | .lossDeadlineExpiry time tick => Sys2Proof.Machine.execLossDeadlineExpiry time tick s
  | .flywheelTick time tick => Sys2Proof.Machine.execFlywheelTick time tick s
  | .preset m => Sys2Proof.Machine.execPreset m s
  | .headerJudged port bytes => Sys2Proof.Machine.execHeaderJudged port bytes s
  | .frameComplete port bytes => Sys2Proof.Machine.execFrameComplete port bytes s
  | .frameWaitingTimerExpiry port => Sys2Proof.Machine.execFrameWaitingTimerExpiry port s
  | .arm m => Sys2Proof.Machine.execArm m s
  | .disarm m => Sys2Proof.Machine.execDisarm m s
  | .cue m => Sys2Proof.Machine.execCue m s
  | .stop m => Sys2Proof.Machine.execStop m s
  | .cut m => Sys2Proof.Machine.execCut m s
  | .resetChannel m => Sys2Proof.Machine.execResetChannel m s
  | .holdOverExpiry port => Sys2Proof.Machine.execHoldOverExpiry port s
  | .coderCompletion coded => Sys2Proof.Machine.execCoderCompletion coded s
  | .drainTimerExpiry record => Sys2Proof.Machine.execDrainTimerExpiry record s
  | .reportHeard m => Sys2Proof.Machine.execReportHeard m s
  | .reportWindowExpiry record => Sys2Proof.Machine.execReportWindowExpiry record s
  | .storedHeard m => Sys2Proof.Machine.execStoredHeard m s
  | .unstoredHeard m => Sys2Proof.Machine.execUnstoredHeard m s
  | .takeoverHeard m => Sys2Proof.Machine.execTakeoverHeard m s
  | .commitTimerExpiry record => Sys2Proof.Machine.execCommitTimerExpiry record s
  | .acknowledgement tag status => Sys2Proof.Machine.execAcknowledgement tag status s
  | .storeWaitingTimerExpiry tag => Sys2Proof.Machine.execStoreWaitingTimerExpiry tag s
  | .storeHaltAssert => Sys2Proof.Machine.execStoreHaltAssert s
  | .storeHaltRelease => Sys2Proof.Machine.execStoreHaltRelease s
  | .resumeStore m => Sys2Proof.Machine.execResumeStore m s
  | .resetStore m => Sys2Proof.Machine.execResetStore m s
  | .cleared => Sys2Proof.Machine.execCleared s
  | .clearTimerExpiry => Sys2Proof.Machine.execClearTimerExpiry s
  | .storeLinkOtherType kind => Sys2Proof.Machine.execStoreLinkOtherType kind s
  | .lineIdleSend gap => Sys2Proof.Machine.execLineIdleSend gap s
  | .lostArbitration => Sys2Proof.Machine.execLostArbitration s
  | .clash => Sys2Proof.Machine.execClash s
  | .messageSent => Sys2Proof.Machine.execMessageSent s
  | .lineStuck inArbitration => Sys2Proof.Machine.execLineStuck inArbitration s
  | .cueLineFrame gap bits => Sys2Proof.Machine.execCueLineFrame gap bits s
  | .unknownKind kind m => Sys2Proof.Machine.execUnknownKind kind m s
  | .query m => Sys2Proof.Machine.execQuery m s
  | .syncMarkerFound port bytes => Sys2Proof.Machine.execSyncMarkerFound port bytes s

end Sys2Proof.Machine
end

