-- ==== Sys2Proof/Safety.lean ====
section
/-! DEFINITION. What is said of every state or of every step: runs that go on, invariants, and the words the statements share
(how a command is answered, what the end of start-up leaves). -/

namespace Sys2Proof.Machine

/-! ### Runs and invariants -/

/-- A run that never stops with a fault or a refusal. -/
def RunsOn (s : State) : Prop := ∀ k, ∃ t, Sys2Proof.core.run k s = .next t

/-- Every step that answers a next state keeps a property. -/
def KeptByEveryStep (inv : State → Prop) : Prop := ∀ s t, inv s → step s = .next t → inv t

/-- Staging memory has its canonical form. -/
def MemoryCanonical (s : State) : Prop := s.mem.wf = true

/-- Every segment record's damage score equals its formula (R53). -/
def DamageKept (s : State) : Prop :=
  ∀ i, (s.record i).damage = min 65535 (8 * ((s.record i).counts.fills + (s.record i).counts.skipped) +
    2 * ((s.record i).counts.repeats + (s.record i).counts.drops))

/-- The transmit queue holds at most 16 messages, in class order and, within a class, in age order (R166). -/
def TransmitQueueOrdered (s : State) : Prop :=
  s.cue.queue.length ≤ 16 ∧
    s.cue.queue.Pairwise (fun a b => a.cls < b.cls ∨ (a.cls = b.cls ∧ a.age < b.age)) ∧
      ∀ e ∈ s.cue.queue, e.age < s.cue.nextAge

/-- The job queue holds at most 12 jobs (R104). -/
def JobQueueBounded (s : State) : Prop := s.browse.jobs.length ≤ 12

/-- A port is OPEN while its channel is ARMED, RECORDING or ENDING, and CLOSED while the channel is IDLE (R15). -/
def PortsFollowChannels (s : State) : Prop :=
  ∀ c, (s.chan c).port.opened = true ↔ (s.chan c).take.st ≠ .idle

/-- How often a page stands on the free list and on the page lists of all records (R79). -/
def pageCount (s : State) (p : Nat) : Nat :=
  s.pool.free.count p + ∑ i : RecIx, ((s.record i).essPages.count p + (s.record i).brwPages.count p)

/-- Each of the 16,384 pages of the pool stands on exactly one list, and no other number on any (R79). -/
def EachPageOnce (s : State) : Prop := ∀ p, pageCount s p = if p < 16384 then 1 else 0

/-- Every FREE record has the cleared form of R78. -/
def FreeRecordsCleared (s : State) : Prop := ∀ i, (s.record i).st = .free → s.record i = Record.cleared

/-- A record's pending jobs are its jobs in the queue that are not withdrawn, and only an OPEN or CLOSING record has any
(R102, R111, R113, R114). -/
def JobsCounted (s : State) : Prop :=
  ∀ i, (s.record i).pendingJobs = (s.browse.jobs.filter fun j => j.record == i && !j.withdrawn).length ∧
    ((s.record i).st ≠ .opened → (s.record i).st ≠ .closing → (s.record i).pendingJobs = 0)

/-- A record is being written (R141). -/
def BeingWritten (s : State) (i : RecIx) : Prop := (s.record i).st = .writing ∨ (s.record i).st = .indexing

/-- The write queue holds records that are QUEUED, WRITING or INDEXING (R139). -/
def WriteQueueInOrder (s : State) : Prop := ∀ i ∈ s.link.queue, (s.record i).st = .queued ∨ BeingWritten s i

/-- An OUTSTANDING tag stands for an issued place of a record that is being written: one of its pages, or its index with
every page acknowledged; and no two stand for one place (R140 to R144). -/
def TagsInOrder (s : State) : Prop :=
  ∀ k q timer, s.tag k = .outstanding q timer →
    BeingWritten s q.record ∧ (s.record q.record).progress.mark q.ref = some .issued ∧
      (q.ref ∈ (s.record q.record).pageRefs ∨ (q.ref = indexRef ∧
        ∀ ref ∈ (s.record q.record).pageRefs, (s.record q.record).progress.mark ref = some .acknowledged)) ∧
      ∀ k' timer', s.tag k' = .outstanding q timer' → k' = k

/-- The page pool with the records, jobs and requests that keep it in order. -/
def PoolInOrder (s : State) : Prop :=
  EachPageOnce s ∧ FreeRecordsCleared s ∧ JobsCounted s ∧ WriteQueueInOrder s ∧ TagsInOrder s

/-- Every selector's fullness lies within its bucket and its quantiser bounds are in order (R58, R109); and while the engine
is not running its interface is disabled, every channel is IDLE with an empty budget, and there is no job (R170, R174). -/
def SelectorsInRange (s : State) : Prop :=
  (∀ c, (s.chan c).sel.qMin ≤ (s.chan c).sel.qMax ∧ (s.chan c).sel.fullness ≤ (s.chan c).sel.bucket) ∧
    (s.status.phase ≠ .running → s.cue.enabled = false ∧ s.browse.jobs = [] ∧
      ∀ c, (s.chan c).take.st = .idle ∧ (s.chan c).sel.fullness = 0)

/-! ### Words of the statements -/

/-- The answer to a command: one REPLY to its sender when it was addressed to this station, else nothing (R176). -/
def State.answered (m : Heard) (code : ReplyCode) (adjusted : Bool) (channel kind : Byte) (s : State) : State :=
  match m.target with
  | .station _ => s.reply m.sender code adjusted channel kind
  | _ => s

/-- A value is brought into a range: below it to the lower end, above it to the upper end, inside it unchanged (R58). -/
def Clamped (lo hi x y : Nat) : Prop := (x < lo → y = lo) ∧ (hi < x → y = hi) ∧ (lo ≤ x → x ≤ hi → y = x)

/-- Every timer that counts house ticks has counted one, a commit timer only with the enable latch set, nothing is held any
longer of what an earlier expiry interrupted, and nothing else has changed (R12, R127; log 31). -/
structure TimersCounted (s t : State) : Prop where
  waiting : ∀ c, t.chan c =
    { s.chan c with port := { (s.chan c).port with
        waitTimer := (s.chan c).port.waitTimer.map fun n => n - 1, interrupted := .hunt [] } }
  records : ∀ i, t.record i = { s.record i with
    drainTimer := (s.record i).drainTimer.map fun n => n - 1
    windowTimer := (s.record i).windowTimer.map fun n => n - 1
    commitTimer := if s.link.latch = true then (s.record i).commitTimer.map fun n => n - 1
      else (s.record i).commitTimer }
  outstanding : ∀ k q n, s.tag k = .outstanding q n → t.tag k = .outstanding q (n.map fun n => n - 1)
  others : ∀ k, (∀ q n, s.tag k ≠ .outstanding q n) → t.tag k = s.tag k
  rest : t = { s with
    chans := t.chans
    pool := { s.pool with records := t.pool.records }
    link := { s.link with tags := t.link.tags, clearTimer := s.link.clearTimer.map fun n => n - 1 } }

/-- What the end of start-up (R174) leaves, with a configuration and its source. -/
structure StartUpEnded (cfg : Configuration) (source : Source) (s t : State) : Prop where
  status : t.status = { s.status with
    phase := .running, cfg := cfg, source := some source,
    defaultedLatch := s.status.defaultedLatch || decide (source = .defaulted) }
  channels : ∀ c, t.chan c =
    { port := { (s.chan c).port with
        gating := cfg.params.gating, fwt := cfg.params.fwt, tallyOut := cfg.activeLow }
      sync := { (s.chan c).sync with w := cfg.params.w, p := cfg.params.p, g := cfg.params.g }
      take := { (s.chan c).take with
        segLen := cfg.params.segLen, k := cfg.params.k, twin := cfg.params.twin }
      sel := { (s.chan c).sel with
        n := cfg.params.n, d := cfg.params.d, target := cfg.params.target, bucket := cfg.params.bucket,
        qMin := cfg.params.qMin, qMax := cfg.params.qMax } }
  line : t.cue.enabled = true ∧ t.cue.activity = .waiting 0 ∧ t.cue.onLine = s.cue.onLine ∧
    t.cue.stuckLatch = s.cue.stuckLatch ∧ t.cue.clash = s.cue.clash ∧ t.cue.rxBad = s.cue.rxBad
  start : s.cue.queue = [] → cfg.mask.getLsbD 0 = true →
    t.cue.queue.head?.map TxEntry.msg = some (.notice .start source.reason 0xFF#8 0#32)
  halt : t.link = if s.storeHalt = true ∧ s.link.latch = true then { s.link with latch := false, haltedLatch := true }
    else s.link
  haltNotice : s.cue.queue = [] → s.storeHalt = true → s.link.latch = true → cfg.mask.getLsbD 9 = true →
    t.cue.queue.getLast?.map TxEntry.msg = some (.notice .storeHalted 0x01#8 0xFF#8 s.ref.count)
  rest : t.ref = s.ref ∧ t.pool = s.pool ∧ t.mem = s.mem ∧ t.browse = s.browse ∧ t.arb = s.arb ∧
    t.storeHalt = s.storeHalt ∧ t.storeOut = s.storeOut ∧ t.lineOut = s.lineOut ∧ t.pending = s.pending

end Sys2Proof.Machine
end

