-- ==== Sys2Proof/WellFormed.lean ====
section
/-! DEFINITION. Well-formed commands: operands that the event of the row can carry (the ranges the rules state). `exec` is
total on every command; a command that is not well formed is an event the manual says cannot occur as written. -/

namespace Sys2Proof

/-- A received payload is at most 32 bytes (R164). -/
def Heard.wellFormed (m : Heard) : Bool := decide (m.payload.length ≤ 32)

/-- Each part is named at most once in the order of a tick. -/
def TickInput.wellFormed (t : TickInput) : Bool := decide t.order.Nodup

/-- The kinds of section 11.3. -/
def knownKind (kind : Byte) : Bool :=
  (0x10#8 ≤ kind && kind ≤ 0x19#8) || (0x20#8 ≤ kind && kind ≤ 0x22#8) || (0x30#8 ≤ kind && kind ≤ 0x33#8)

/-- The range checks of each command's operands. -/
def Instr.wellFormed : Instr → Bool
  | .powerOnReset => true
  | .resetRelease _ => true
  | .configurationReadComplete image => decide (image ≠ []) && decide (image.length ≤ 255)
  | .configurationReadTimeout => true
  | .referencePulse _ t => t.wellFormed
  | .lossDeadlineExpiry _ t => t.wellFormed
  | .flywheelTick _ t => t.wellFormed
  | .preset m => m.wellFormed
  | .headerJudged _ x => decide (1 ≤ x.bytes.length) && decide (x.bytes.length ≤ 16)
  | .frameComplete _ x => decide (1 ≤ x.bytes.length) && decide (x.bytes.length ≤ 1048580)
  | .frameWaitingTimerExpiry _ => true
  | .arm m => m.wellFormed
  | .disarm m => m.wellFormed
  | .cue m => m.wellFormed
  | .stop m => m.wellFormed
  | .cut m => m.wellFormed
  | .resetChannel m => m.wellFormed
  | .holdOverExpiry _ => true
  | .coderCompletion coded => decide (64 ≤ coded.length) && decide (coded.length ≤ 262144)
  | .drainTimerExpiry _ => true
  | .reportHeard m => m.wellFormed
  | .reportWindowExpiry _ => true
  | .storedHeard m => m.heard.wellFormed
  | .unstoredHeard m => m.wellFormed
  | .takeoverHeard m => m.wellFormed
  | .commitTimerExpiry _ => true
  | .acknowledgement _ _ => true
  | .storeWaitingTimerExpiry _ => true
  | .storeHaltAssert => true
  | .storeHaltRelease => true
  | .resumeStore m => m.wellFormed
  | .resetStore m => m.wellFormed
  | .cleared => true
  | .clearTimerExpiry => true
  | .storeLinkOtherType kind => decide (kind ≠ 0x02#8) && decide (kind ≠ 0x04#8)
  | .lineIdleSend _ => true
  | .lostArbitration => true
  | .clash => true
  | .messageSent => true
  | .lineStuck _ => true
  | .cueLineFrame _ bits => decide (bits.head? = some false)
  | .unknownKind kind m => !knownKind kind && m.wellFormed
  | .query m => m.wellFormed
  | .syncMarkerFound _ bytes => decide (bytes.getLast? = some 0xD8#8)

end Sys2Proof
end

