-- ==== Sys2Proof/Certificates/Slice0/Obligations.lean ====
section
/-! DEFINITION. The statements for the provers, from the rules of spec/. A clause that says an event out of place changes
nothing is the model's choice (log 1), and so is what a step does with nothing waiting (log 2). -/

section

open Sys2Proof Sys2Proof.Machine

/-! ### Steps -/

/-- A step takes the command at the front of the queue and runs it on the state with the queue's rest. -/
def Obligations.StepTakesFrontCommand : Prop :=
  ∀ (s : State) (c : Instr) (rest : List Instr), s.pending = c :: rest → step s = exec c { s with pending := rest }

/-- With nothing waiting a step leaves the state as it is (the model's choice, log 2), and no command changes the queue of
waiting commands, POWER_ON_RESET included (the model's choice, log 24). -/
def Obligations.QueueKeptByCommands : Prop :=
  (∀ s : State, s.pending = [] → step s = .next s) ∧
(∀ (c : Instr) (s t : State), exec c s = .next t → t.pending = s.pending)

/-- No run stops: every command answers a next state in every state. That a command whose event cannot happen answers one (it
changes nothing), and that a run goes on with nothing waiting, are the model's choices (log 1, log 2). -/
def Obligations.EveryRunGoesOn : Prop :=
  ∀ s : State, RunsOn s

/-! ### Reset and start-up -/

/-- POWER_ON_RESET puts every block in the state that its reset table gives, but for the parameters that a table leaves to
the configuration once loaded. That the input level, what has been sent and the waiting commands stay is the model's choice
(log 10, log 14, log 24). -/
def Obligations.PowerOnResetResetsEveryBlock : Prop :=
  ∀ s : State, ∃ t, exec .powerOnReset s = .next t ∧
    t.ref = { st := .waiting, cur := 0, prev := 0, measStart := none, lastTick := none, deadline := none,
              flywheel := false, count := 0#32, preset := none, lostLatch := false } ∧
    (∀ c,
      (t.chan c).port.opened = false ∧ (t.chan c).port.rx = .hunt [] ∧ (t.chan c).port.interrupted = .hunt [] ∧
      (t.chan c).port.feedId = none ∧
      (t.chan c).port.waitTimer = none ∧ (t.chan c).port.consecBad = 0 ∧ (t.chan c).port.rawPresence = false ∧
      (t.chan c).port.debPresence = false ∧ (t.chan c).port.presenceRun = 0 ∧
      (t.chan c).port.feed = .lost .silent ∧ (t.chan c).port.firstSinceArm = false ∧
      (t.chan c).port.faultMark = false ∧ (t.chan c).port.tally = .off ∧ (t.chan c).port.tallyPhase = 0 ∧
      (t.chan c).port.tallyOut = false ∧ (t.chan c).port.accepted = 0 ∧ (t.chan c).port.corrupt = 0 ∧
      (t.chan c).port.foreign = 0) ∧
    (∀ c,
      (t.chan c).sync.st = .seeking ∧ (t.chan c).sync.e = 0#16 ∧ (t.chan c).sync.window = [] ∧
      (t.chan c).sync.h = 0 ∧ (t.chan c).sync.repeatMark = false ∧ (t.chan c).sync.late = 0 ∧
      (t.chan c).sync.duplicate = 0 ∧ (t.chan c).sync.discontinuities = 0) ∧
    (∀ c,
      (t.chan c).take.st = .idle ∧ (t.chan c).take.buffer = none ∧ (t.chan c).take.active = none ∧
      (t.chan c).take.cueEmpty = false ∧ (t.chan c).take.clip = 0#32 ∧ (t.chan c).take.nextSeg = 0#16 ∧
      (t.chan c).take.remaining = 0 ∧ (t.chan c).take.holdOver = 0 ∧ (t.chan c).take.overruns = 0) ∧
    (∀ c, (t.chan c).sel.fullness = 0 ∧ (t.chan c).sel.a = 0 ∧ (t.chan c).sel.skips = 0) ∧
    (∀ i, t.record i = Record.cleared) ∧ t.pool.free = List.range' 0 16384 ∧ t.pool.evictions = 0 ∧
    t.browse = { jobs := [], coder := .idle } ∧ t.arb = { lateReport := 0, unmatched := 0, takeovers := 0 } ∧
    (∀ k, t.tag k = .free) ∧ t.link.queue = [] ∧ t.link.latch = true ∧ t.link.st = .ready ∧
    t.link.clearTimer = none ∧ t.link.haltedLatch = false ∧ t.link.failedLatch = false ∧ t.link.stored = 0 ∧
    t.link.fault = 0 ∧ t.link.stray = 0 ∧
    t.cue.enabled = false ∧ t.cue.activity = .waiting 0 ∧ t.cue.queue = [] ∧ t.cue.onLine = none ∧
    t.cue.stuckLatch = false ∧ t.cue.droppedLatch = false ∧ t.cue.clash = 0 ∧ t.cue.rxBad = 0 ∧
    t.status.phase = .inReset ∧ t.status.station = none ∧ t.status.source = none ∧
    t.status.defaultedLatch = false ∧
    t.storeHalt = s.storeHalt ∧ t.storeOut = s.storeOut ∧ t.lineOut = s.lineOut ∧ t.pending = s.pending

/-- RESET_RELEASE reads the straps and begins start-up. The configuration read ends it: a good image puts its own fields in
force, a bad image or no answer puts the built-in defaults in force and sets CONFIG DEFAULTED. An image is bad when its length
byte is below 33 or above 128, or its check does not match; that one which ends before its length byte says is bad too is the
model's reading (log 23). -/
def Obligations.StartUp : Prop :=
  (∀ (s : State) (straps : Station), s.status.phase = .inReset →
    exec (.resetRelease straps) s =
      .next { s with status := { s.status with phase := .startingUp, station := some straps } }) ∧
(∀ s : State, s.status.phase = .startingUp →
    (∀ image, imageGood image = true → ∃ t, exec (.configurationReadComplete image) s = .next t ∧
      StartUpEnded (parseImage image) .loaded s t) ∧
    (∀ image, imageGood image = false → ∃ t, exec (.configurationReadComplete image) s = .next t ∧
      StartUpEnded builtInConfiguration .defaulted s t) ∧
    ∃ t, exec .configurationReadTimeout s = .next t ∧ StartUpEnded builtInConfiguration .defaulted s t) ∧
(∀ image : List Byte,
    let n := field image 0 1
    imageGood image = false ↔ n < 33 ∨ 128 < n ∨ image.length < n ∨ crc16 (image.take (n - 2)) ≠ field image (n - 2) 2)

/-- The clamp takes each parameter apart, in the order of R58: a value below its range becomes the lower end, one above it the
upper end, and one inside it stays. The ranges of the lead, the selection ratio, the bucket and the quantiser's upper bound
rest on the clamped window depth, denominator, target and lower bound. Twin mode and carrier gating stay as they are. -/
def Obligations.ClampBringsIntoRange : Prop :=
  ∀ x : ChannelParams,
    Clamped 8 1024 x.segLen (clampParams x).segLen ∧ Clamped 1 8 x.w (clampParams x).w ∧
      Clamped 1 (clampParams x).w x.p (clampParams x).p ∧ Clamped 0 7 x.g (clampParams x).g ∧
      Clamped 1 255 x.fwt (clampParams x).fwt ∧ Clamped 0 1023 x.k (clampParams x).k ∧
      Clamped 1 16 x.d (clampParams x).d ∧ Clamped 1 (clampParams x).d x.n (clampParams x).n ∧
      Clamped 512 65535 x.target (clampParams x).target ∧
      Clamped (2 * (clampParams x).target) 4194304 x.bucket (clampParams x).bucket ∧
      Clamped 1 31 x.qMin (clampParams x).qMin ∧ Clamped (clampParams x).qMin 31 x.qMax (clampParams x).qMax ∧
      (clampParams x).twin = x.twin ∧ (clampParams x).gating = x.gating

/-! ### The house timeline -/

/-- A house tick moves the count on by 1, or to the pending preset, which it clears, and changes nothing else of the Reference
Unit, nor the Status block, the STORE-HALT level or what was sent on the cue line. It counts every timer once, a commit
timer only while the enable latch is set, and then takes its parts in the order of its operand, each once: for each of the
four channels the presence sample, the placement and the tally step, and the expiries that the order names, each as its own
command takes it. Presence is sampled and debounced over three samples; hold-over is counted while RECORDING with the feed
LOST and settled when it passes k, a boundary is handled, and outside IDLE exactly one placement is released, into the
segment that is OPEN then; the tally phase moves on by 1 and drives the output. That the order is an operand, with the parts it
does not name behind it, that an expiry can be taken inside the tick, and that a last lane byte together with it is still
judged, are the model's readings and choices (log 5, log 3, log 31). -/
def Obligations.HouseTickMovesTheCount : Prop :=
  (∀ (tick : TickInput) (s : State),
    (s.ref.preset = none →
      (State.houseTick tick s).ref = { s.ref with count := s.ref.count + 1#32, preset := none }) ∧
    (∀ v, s.ref.preset = some v → (State.houseTick tick s).ref = { s.ref with count := v, preset := none }) ∧
    (State.houseTick tick s).status = s.status ∧ (State.houseTick tick s).storeHalt = s.storeHalt ∧
    (State.houseTick tick s).lineOut = s.lineOut) ∧
(∀ (tick : TickInput) (s : State),
    (tickParts tick).Nodup ∧
    (∀ c, .presence c ∈ tickParts tick ∧ .placement c ∈ tickParts tick ∧ .tally c ∈ tickParts tick) ∧
    (∀ part, part ∈ tickParts tick →
      part ∈ tick.order ∨ ∃ c, part = .presence c ∨ part = .placement c ∨ part = .tally c) ∧
    ∃ u, TimersCounted
        { s with ref := { s.ref with count := s.ref.preset.getD (s.ref.count + 1#32), preset := none } } u ∧
      State.houseTick tick s = (tickParts tick).foldl (State.tickPart tick s.ref.preset.isSome) u) ∧
(∀ (tick : TickInput) (preset : Bool) (s : State),
    let part (x : TickPart) : State := s.tickPart tick preset x
    (∀ c, part (.presence c) = s.samplePresence (tick.presence.getLsbD c.val) c ∧
      part (.placement c) = s.takeTick preset c ∧ part (.tally c) = s.tallyStep c ∧
      exec (.frameWaitingTimerExpiry c) s = .next (part (.waiting c)) ∧
      ∀ b, exec (.frameComplete c { bytes := [b], together := true }) s = .next (part (.lane c b))) ∧
    (∀ i, exec (.drainTimerExpiry i) s = .next (part (.drain i)) ∧
      exec (.reportWindowExpiry i) s = .next (part (.window i)) ∧
      exec (.commitTimerExpiry i) s = .next (part (.commit i))) ∧
    (∀ k, exec (.storeWaitingTimerExpiry k) s = .next (part (.store k))) ∧
    exec .clearTimerExpiry s = .next (part .clear)) ∧
(∀ (s : State) (c : Port) (level : Bool),
    let p := (s.chan c).port
    let changed := s.onPort c fun p => { p with rawPresence := level, presenceRun := 0, debPresence := level }
    (level = p.debPresence →
      s.samplePresence level c = s.onPort c fun p => { p with rawPresence := level, presenceRun := 0 }) ∧
    (level ≠ p.debPresence → p.presenceRun + 1 < 3 →
      s.samplePresence level c =
        s.onPort c fun p => { p with rawPresence := level, presenceRun := p.presenceRun + 1 }) ∧
    (level ≠ p.debPresence → 3 ≤ p.presenceRun + 1 → level = true ∨ p.gating = false ∨ p.opened = false →
      s.samplePresence level c = changed) ∧
    (level ≠ p.debPresence → 3 ≤ p.presenceRun + 1 → level = false → p.gating = true → p.opened = true →
      s.samplePresence level c =
        State.declareLost c .carrier (changed.onPort c fun p => { p with rx := .hunt [] }))) ∧
(∀ (s : State) (c : Port) (preset : Bool),
    let t := (s.chan c).take
    let counted := s.onTake c fun t => { t with holdOver := t.holdOver + 1 }
    let placed (u : State) : State := State.releasePlacement c
      (if preset = true ∨ u.ref.count.toNat % (u.chan c).take.segLen = 0 then u.boundary c else u)
    (t.st = .idle → s.takeTick preset c = s) ∧
    (t.st ≠ .idle → t.st ≠ .recording ∨ (s.chan c).port.feed = .live → s.takeTick preset c = placed s) ∧
    (t.st = .recording → (s.chan c).port.feed ≠ .live → t.holdOver + 1 ≤ t.k →
      s.takeTick preset c = placed counted) ∧
    (t.st = .recording → (s.chan c).port.feed ≠ .live → t.k < t.holdOver + 1 →
      s.takeTick preset c = placed (State.channelNotice .takeEnd 0x04#8 c (State.retally c
        (State.onTake c (fun t => { t with st := .armed, active := none, holdOver := 0, buffer := none })
          (counted.closeOpen true c)))))) ∧
(∀ (s : State) (c : Port),
    let y := (s.chan c).sync.release
    (s.openRecord c = none → s.releasePlacement c = s.onSync c fun _ => y.sync) ∧
    ∀ i, s.openRecord c = some i →
      s.releasePlacement c = State.onRec i
        (fun r => r.count fun n => { n with drops := min 65535 (n.drops + y.drops) })
        (State.appendPlacement c i y.placement (s.onSync c fun _ => y.sync))) ∧
(∀ (s : State) (c : Port), s.tallyStep c = s.onPort c fun p =>
    let phase := (p.tallyPhase + 1) % 16
    let lit := match p.tally with
      | .off => false
      | .ready => decide (phase = 0)
      | .on => true
      | .alert => decide (phase % 2 = 0)
    { p with tallyPhase := phase, tallyOut := if s.status.cfg.activeLow = true then !lit else lit })

/-- In WAITING, a real pulse moves the unit to LOCKING and makes a tick. -/
def Obligations.FirstPulseLocks : Prop :=
  ∀ (s : State) (time : Nat) (tick : TickInput),
    s.running = true → s.ref.st = .waiting →
    exec (.referencePulse time tick) s =
        .next (State.houseTick tick
          { s with ref := { s.ref with st := .locking, measStart := some time, lastTick := some time } }) ∧
      ((State.houseTick tick { s with ref := { s.ref with
          st := .locking, measStart := some time, lastTick := some time } }).ref =
        { s.ref with
          st := .locking, measStart := some time, lastTick := some time,
          count := s.ref.preset.getD (s.ref.count + 1#32), preset := none })

/-- In LOCKING and in LOCKED, a real pulse is measured within the capture's limits and makes a tick, and the loss deadline
runs to 1.5 times the new capture after it (in half microseconds: 2 × the instant + 3 × the capture). That unit, and that a
pulse past the deadline is taken so as long as the expiry is not, are the model's choices (log 6). -/
def Obligations.MeasuredPulseTicks : Prop :=
  ∀ (s : State) (time start : Nat) (tick : TickInput),
    s.running = true → s.ref.st = .locking ∨ s.ref.st = .locked → s.ref.measStart = some start → start ≤ time →
    exec (.referencePulse time tick) s =
      .next (State.houseTick tick { s with ref := { s.ref with
        st := .locked, prev := s.ref.cur, cur := max 1 (min 16777215 (time - start)), measStart := some time,
        lastTick := some time, deadline := some (2 * time + 3 * max 1 (min 16777215 (time - start))) } })

/-- A reference pulse in FLYWHEEL returns the unit to LOCKED; it is absorbed when less than half a capture has passed since
the last tick, and otherwise taken as a tick; REF BACK carries the count that stands after it. The half microseconds of the
deadline are the model's choice (log 6), and so is REF BACK behind the channels' notices (log 28). -/
def Obligations.ReturnOfReference : Prop :=
  ∀ (s : State) (time last : Nat) (tick : TickInput),
    s.running = true → s.ref.st = .flywheel → s.ref.lastTick = some last → last ≤ time →
    (2 * (time - last) < s.ref.cur →
      exec (.referencePulse time tick) s =
        .next (State.notice .refBack 0x00#8 0xFF#8 s.ref.count { s with ref := { s.ref with
          st := .locked, flywheel := false, measStart := some time,
          deadline := some (2 * time + 3 * s.ref.cur) } })) ∧
    (s.ref.cur ≤ 2 * (time - last) →
      exec (.referencePulse time tick) s =
        .next (State.notice .refBack 0x00#8 0xFF#8 (s.ref.preset.getD (s.ref.count + 1#32))
          (State.houseTick tick { s with ref := { s.ref with
            st := .locked, flywheel := false, measStart := some time, lastTick := some time,
            deadline := some (2 * time + 3 * s.ref.cur) } })))

/-- The loss deadline's expiry in LOCKED: FLYWHEEL, the deadline stopped, the REF LOST latch, one entry tick, and a REF LOST
notice with the count after it. From then on the flywheel schedule makes a tick each time one current capture has passed
since the last tick. The half microseconds of the deadline, and an instant past the due moment taken as the last tick, are
the model's choices (log 6), and so is REF LOST behind the channels' notices (log 28). -/
def Obligations.LossOfReferenceAndFlywheel : Prop :=
  (∀ (s : State) (time d : Nat) (tick : TickInput),
    s.ref.st = .locked → s.ref.deadline = some d → d ≤ 2 * time →
    exec (.lossDeadlineExpiry time tick) s =
      .next (State.notice .refLost 0x00#8 0xFF#8 (s.ref.preset.getD (s.ref.count + 1#32))
        (State.houseTick tick { s with ref := { s.ref with
          st := .flywheel, deadline := none, flywheel := true, lostLatch := true, lastTick := some time } }))) ∧
(∀ (s : State) (time last : Nat) (tick : TickInput),
    s.ref.st = .flywheel → s.ref.flywheel = true → s.ref.lastTick = some last → last + s.ref.cur ≤ time →
    exec (.flywheelTick time tick) s =
      .next (State.houseTick tick { s with ref := { s.ref with lastTick := some time } }))

/-! ### Feed ports -/

/-- Lane bytes that find the port CLOSED, or held by carrier gating, change nothing. -/
def Obligations.UnheardLaneBytesChangeNothing : Prop :=
  ∀ (s : State) (c : Port) (bytes : List Byte),
    (s.chan c).port.opened = false ∨ ((s.chan c).port.gating = true ∧ (s.chan c).port.debPresence = false) →
    exec (.syncMarkerFound c bytes) s = .next s ∧
      ∀ together, exec (.headerJudged c { bytes := bytes, together := together }) s = .next s ∧
        exec (.frameComplete c { bytes := bytes, together := together }) s = .next s

/-- A hunting receiver, whether it holds no byte yet or up to three, finds the sync marker at any byte offset, at its first
occurrence, and begins a header. -/
def Obligations.SyncMarkerFoundAtAnyOffset : Prop :=
  ∀ (s : State) (c : Port) (seen bytes : List Byte),
    (s.chan c).port.receives = true → (s.chan c).port.rx = .hunt seen → seen.length ≤ 3 → bytes ≠ [] →
    syncMarker <:+ seen ++ bytes → ¬ syncMarker <:+: (seen ++ bytes).dropLast →
    exec (.syncMarkerFound c bytes) s =
      .next (s.onPort c fun p => { p with rx := .header [], interrupted := .hunt [] })

/-- The sixteenth header byte: a good header moves the receiver to PAYLOAD with its fields kept; a bad one, whose check
does not match or whose payload length is 0 or above 1,048,576, is a CORRUPT outcome, which raises the CORRUPT counter and
the consecutive-bad count and returns the receiver to HUNT; the sixteenth in a row declares FEED FAULT. The last check
byte: a frame whose payload check fails is CORRUPT in the same way, and a good frame of another feed counts FOREIGN and
nothing else. -/
def Obligations.HeadersAndFramesJudged : Prop :=
  (∀ (s : State) (c : Port) (got bytes : List Byte) (together : Bool),
    (s.chan c).port.receives = true → (s.chan c).port.rx = .header got → bytes ≠ [] →
    (got ++ bytes).length = 16 →
    let judged : Instr := .headerJudged c { bytes := bytes, together := together }
    (headerGood (got ++ bytes) = true →
      exec judged s =
        .next (s.onPort c fun p => { p with rx := .payload (parseHeader (got ++ bytes)) [], interrupted := .hunt [] })) ∧
    (headerGood (got ++ bytes) = false → (s.chan c).port.consecBad + 1 ≠ 16 →
      exec judged s = .next (s.onPort c fun p =>
        { p with
          rx := .hunt [], interrupted := .hunt [], corrupt := min 65535 (p.corrupt + 1), consecBad := p.consecBad + 1 })) ∧
    (headerGood (got ++ bytes) = false → (s.chan c).port.consecBad + 1 = 16 →
      exec judged s = .next (State.feedFault c (s.onPort c fun p =>
        { p with
          rx := .hunt [], interrupted := .hunt [], corrupt := min 65535 (p.corrupt + 1), consecBad := 16 })))) ∧
(∀ (s : State) (c : Port) (h : Header) (got bytes : List Byte) (together : Bool),
    (s.chan c).port.receives = true → (s.chan c).port.rx = .payload h got → bytes ≠ [] →
    (got ++ bytes).length = h.length + 4 →
    let complete : Instr := .frameComplete c { bytes := bytes, together := together }
    (crc32 ((got ++ bytes).take h.length) ≠ field (got ++ bytes) h.length 4 →
      (s.chan c).port.consecBad + 1 ≠ 16 →
      exec complete s = .next (s.onPort c fun p =>
        { p with
          rx := .hunt [], interrupted := .hunt [], corrupt := min 65535 (p.corrupt + 1), consecBad := p.consecBad + 1 })) ∧
    (crc32 ((got ++ bytes).take h.length) ≠ field (got ++ bytes) h.length 4 →
      (s.chan c).port.consecBad + 1 = 16 →
      exec complete s = .next (State.feedFault c (s.onPort c fun p =>
        { p with
          rx := .hunt [], interrupted := .hunt [], corrupt := min 65535 (p.corrupt + 1), consecBad := 16 }))) ∧
    (crc32 ((got ++ bytes).take h.length) = field (got ++ bytes) h.length 4 →
      (s.chan c).port.feedId ≠ some h.feedId →
      exec complete s = .next (s.onPort c fun p =>
        { p with rx := .hunt [], interrupted := .hunt [], foreign := min 65535 (p.foreign + 1) }))) ∧
(∀ header : List Byte, headerGood header = false ↔
    crc16 (header.take 14) ≠ field header 14 2 ∨ field header 8 3 = 0 ∨ 1048576 < field header 8 3)

/-- The last check byte of an accepted frame: the accepted counter, the consecutive-bad count at 0, the frame waiting timer
loaded, the feed LIVE, the frame record handed to the synchroniser, and only then the loss an END flag declares. A feed that
is back is LIVE with its mark cleared, raises FEED BACK unless it is the first since ARM, and clears the hold-over counter.
What the arrival skipped and how late it was go to the counts of the OPEN segment. -/
def Obligations.FrameAccepted : Prop :=
  (∀ (s : State) (c : Port) (h : Header) (got bytes : List Byte) (together : Bool),
    (s.chan c).port.receives = true → (s.chan c).port.rx = .payload h got → bytes ≠ [] →
    (got ++ bytes).length = h.length + 4 →
    crc32 ((got ++ bytes).take h.length) = field (got ++ bytes) h.length 4 →
    (s.chan c).port.feedId = some h.feedId →
    let counted := s.onPort c fun p =>
      { p with
        rx := .hunt [], interrupted := .hunt [], accepted := min 65535 (p.accepted + 1), consecBad := 0
        waitTimer := some p.fwt }
    let live := if (s.chan c).port.feed = .live then counted else counted.feedBack c
    let arrived := live.frameArrival c
      { seq := h.seq, timecode := h.timecode, key := h.key, payload := (got ++ bytes).take h.length }
    exec (.frameComplete c { bytes := bytes, together := together }) s =
      .next (if h.ends = true then arrived.declareLost c .ended else arrived)) ∧
(∀ (s : State) (c : Port),
    let live := State.retally c (s.onPort c fun p => { p with feed := .live, firstSinceArm := false })
    ((s.chan c).port.firstSinceArm = true →
      s.feedBack c = live.onTake c fun t => { t with holdOver := 0 }) ∧
    ((s.chan c).port.firstSinceArm = false →
      s.feedBack c = State.onTake c (fun t => { t with holdOver := 0 })
        (live.channelNotice .feedBack 0x00#8 c))) ∧
(∀ (s : State) (c : Port) (f : FrameRecord),
    let a := (s.chan c).sync.arrive f
    (s.openRecord c = none → s.frameArrival c f = s.onSync c fun _ => a.sync) ∧
    ∀ i, s.openRecord c = some i →
      s.frameArrival c f = State.onRec i
        (fun r => r.count fun n =>
          { n with skipped := min 65535 (n.skipped + a.skipped), late := min 65535 (n.late + a.late) })
        (s.onSync c fun _ => a.sync))

/-- Expiry of the frame waiting timer: the timer stops, and a LIVE feed is declared LOST (SILENT). A declaration makes a
LIVE feed LOST with the timer stopped and the frame under assembly abandoned, queues FEED LOST, and empties the window,
whose frames are counted skipped in the OPEN segment; a LOST feed changes its reason alone. A timer that has not run out
does not expire; the count that an expiry left for a later tick reads is the model's choice (log 3). The last byte of a
bad header or of a frame that falls together with the expiry, taken after it, is judged as if the expiry had not abandoned
what it ends (the model's choice, log 31); any other byte finds the receiver in HUNT. -/
def Obligations.FrameWaitingTimerExpires : Prop :=
  (∀ (s : State) (c : Port), (s.chan c).port.waitTimer = some 0 →
    ((s.chan c).port.feed = .live →
      exec (.frameWaitingTimerExpiry c) s =
        .next (State.declareLost c .silent (s.onPort c fun p =>
          { p with waitTimer := none, interrupted := p.rx }))) ∧
    ((s.chan c).port.feed ≠ .live →
      exec (.frameWaitingTimerExpiry c) s = .next (s.onPort c fun p => { p with waitTimer := none }))) ∧
(∀ (s : State) (c : Port), (s.chan c).port.waitTimer ≠ some 0 → exec (.frameWaitingTimerExpiry c) s = .next s) ∧
(∀ (s : State) (c : Port) (b : Byte), (s.chan c).port.receives = true → (s.chan c).port.rx = .hunt [] →
    let still := s.onPort c fun p => { p with rx := p.interrupted, interrupted := .hunt [] }
    let last (together : Bool) : LaneBytes := { bytes := [b], together := together }
    (∀ got, (s.chan c).port.interrupted = .header got → got.length = 15 → headerGood (got ++ [b]) = false →
      exec (.headerJudged c (last true)) s = exec (.headerJudged c (last false)) still) ∧
    (∀ h got, (s.chan c).port.interrupted = .payload h got → got.length = h.length + 3 →
      exec (.frameComplete c (last true)) s = exec (.frameComplete c (last false)) still) ∧
    (∀ got, (s.chan c).port.interrupted = .header got → got.length ≠ 15 ∨ headerGood (got ++ [b]) = true →
      exec (.headerJudged c (last true)) s = exec (.headerJudged c (last false)) s) ∧
    (∀ h got, (s.chan c).port.interrupted = .payload h got → got.length ≠ h.length + 3 →
      exec (.frameComplete c (last true)) s = exec (.frameComplete c (last false)) s) ∧
    (exec (.headerJudged c (last false)) s =
      .next (s.onPort c fun p => { p with rx := .hunt [b], interrupted := .hunt [] }))) ∧
(∀ (s : State) (c : Port) (reason : LossReason),
    ((s.chan c).port.feed = .live →
      s.declareLost c reason =
        State.syncLoss c (State.channelNotice .feedLost reason.byte c
          (State.onPort c (fun p => { p with waitTimer := none, rx := p.rx.abandon })
            (State.retally c (s.onPort c fun p => { p with feed := .lost reason }))))) ∧
    ((s.chan c).port.feed ≠ .live → s.declareLost c reason = s.onPort c fun p => { p with feed := .lost reason })) ∧
(∀ (s : State) (c : Port),
    (s.openRecord c = none →
      s.syncLoss c = s.onSync c fun y => { y with window := [], st := .seeking, h := 0 }) ∧
    ∀ i, s.openRecord c = some i →
      s.syncLoss c = State.onSync c (fun y => { y with window := [], st := .seeking, h := 0 })
        (s.onRec i fun r => r.count fun n =>
          { n with skipped := min 65535 (n.skipped + (s.chan c).sync.window.length) }))

/-- FEED FAULT closes the port with the fault mark set, empties the window, queues FEED FAULT, and brings the channel to IDLE
with ALERT on its tally; in RECORDING and ENDING it closes the OPEN segment torn and queues TAKE END (FAULT). The cues go,
the other channels and the Reference Unit stay as they are. The tally is evaluated once, after all the changes (the model's
choice, log 18): it is the first row of R31's table that applies, and a new state starts at phase 0 and drives the output
at once. -/
def Obligations.FeedFaultClosesTheChannel : Prop :=
  (∀ (s : State) (c : Port),
    (((s.feedFault c).chan c).port.opened = false ∧ ((s.feedFault c).chan c).port.faultMark = true ∧
      ((s.feedFault c).chan c).port.rx = .hunt [] ∧ ((s.feedFault c).chan c).port.waitTimer = none ∧
      ((s.feedFault c).chan c).port.feed = .lost .silent ∧ ((s.feedFault c).chan c).port.tally = .alert ∧
      ((s.feedFault c).chan c).port.consecBad = (s.chan c).port.consecBad) ∧
    (((s.feedFault c).chan c).sync = { (s.chan c).sync with window := [], st := .seeking, h := 0 }) ∧
    (((s.feedFault c).chan c).take =
      { (s.chan c).take with st := .idle, buffer := none, active := none, holdOver := 0 }) ∧
    (∀ d, d ≠ c → (s.feedFault c).chan d = s.chan d) ∧ (s.feedFault c).ref = s.ref) ∧
(∀ (s : State) (c : Port),
    let told := State.channelNotice .feedFault 0x00#8 c (s.setChan c
      { port := { (s.chan c).port with
          opened := false, rx := .hunt [], waitTimer := none, feed := .lost .silent, faultMark := true }
        sync := { (s.chan c).sync with window := [], st := .seeking, h := 0 }
        take := (s.chan c).take
        sel := (s.chan c).sel })
    let toIdle (u : State) : State := State.retally c
      (u.onTake c fun t => { t with st := .idle, buffer := none, active := none, holdOver := 0 })
    ((s.chan c).take.st = .recording ∨ (s.chan c).take.st = .ending →
      s.feedFault c = toIdle (State.channelNotice .takeEnd 0x05#8 c (told.closeOpen true c))) ∧
    ((s.chan c).take.st = .armed ∨ (s.chan c).take.st = .idle → s.feedFault c = toIdle told)) ∧
(∀ (s : State) (c : Port),
    let p := (s.chan c).port
    let tally : TallyState :=
      if p.faultMark = true then .alert
      else if (s.chan c).take.st = .idle then .off
      else if p.feed ≠ .live then .alert
      else if (s.chan c).take.st = .armed then .ready
      else .on
    let lit := decide (tally ≠ .off)
    (p.tally = tally → s.retally c = s) ∧
    (p.tally ≠ tally → s.retally c = s.onPort c fun p =>
      { p with
        tally := tally, tallyPhase := 0, tallyOut := if s.status.cfg.activeLow = true then !lit else lit }))

/-! ### Frame placement -/

/-- In SEEKING a frame arrival sets E and stands alone at position 0; the synchroniser moves to PREROLL and counts
nothing. -/
def Obligations.ArrivalEndsSeeking : Prop :=
  ∀ (y : Synchroniser) (f : FrameRecord), y.st = .seeking →
    y.arrive f = { sync := { y with e := f.seq, window := [f], st := .preroll, h := 0 }, skipped := 0, late := 0 }

/-- The bands of the sequence distance in PREROLL and RUNNING: DUPLICATE, stored, advance, discontinuity and LATE, with what
each leaves and counts. -/
def Obligations.ArrivalBands : Prop :=
  ∀ (y : Synchroniser) (f : FrameRecord), y.st ≠ .seeking → 1 ≤ y.w → y.w ≤ 8 →
    let d := (f.seq - y.e).toNat
    ((∃ x ∈ y.window, (x.seq - y.e).toNat = d) → d < y.w →
      y.arrive f =
        { sync := { y with duplicate := min 65535 (y.duplicate + 1) }, skipped := 0, late := 0 }) ∧
    ((∀ x ∈ y.window, (x.seq - y.e).toNat ≠ d) → d < y.w →
      (y.arrive f).skipped = 0 ∧ (y.arrive f).late = 0 ∧
        (y.arrive f).sync = { y with window := (y.arrive f).sync.window } ∧
        ((y.arrive f).sync.window).Perm (f :: y.window)) ∧
    (y.w ≤ d → d ≤ 255 →
      (y.arrive f).skipped = d - y.w + 1 ∧ (y.arrive f).late = 0 ∧
        (y.arrive f).sync =
          { y with e := f.seq - BitVec.ofNat 16 y.w + 1#16, window := (y.arrive f).sync.window, h := 0 } ∧
        ((y.arrive f).sync.window).Perm
          (f :: y.window.filter fun x => decide ((x.seq - (f.seq - BitVec.ofNat 16 y.w + 1#16)).toNat < y.w))) ∧
    (256 ≤ d → d ≤ 32767 →
      y.arrive f =
        { sync :=
            { y with
              e := f.seq, window := [f], h := 0, discontinuities := min 65535 (y.discontinuities + 1) }
          skipped := y.window.length, late := 0 }) ∧
    (32768 ≤ d → y.arrive f = { sync := { y with late := min 65535 (y.late + 1) }, skipped := 0, late := 1 })

/-- The release of a tick: FILL in SEEKING and in PREROLL below its lead; PREROLL at its lead moves to RUNNING with h 0 and
releases as RUNNING does; in RUNNING a PRESENT with its drop where position 0
is occupied, and otherwise the gap hold of R48 or the REPEAT of an empty window. -/
def Obligations.ReleaseOfATick : Prop :=
  (∀ y : Synchroniser,
    (y.st = .seeking → y.release = { sync := y, placement := .fill, drops := 0 }) ∧
    (y.st = .preroll → y.window.length < y.p → y.release = { sync := y, placement := .fill, drops := 0 }) ∧
    (y.st = .preroll → y.p ≤ y.window.length →
      y.release = Synchroniser.release { y with st := .running, h := 0 }) ∧
    (y.st = .running → y.window = [] → y.release =
      { sync := y, placement := if y.repeatMark = true then .repeated else .fill, drops := 0 }) ∧
    (y.st = .running → y.window ≠ [] → (∀ x ∈ y.window, x.seq ≠ y.e) →
      y.release =
        if y.g < y.h + 1 then { sync := { y with e := y.e + 1#16, h := 0 }, placement := .fill, drops := 0 }
        else
          { sync := { y with h := y.h + 1 }
            placement := if y.repeatMark = true then .repeated else .fill, drops := 0 })) ∧
(∀ (y : Synchroniser) (f : FrameRecord), y.st = .running → f ∈ y.window → f.seq = y.e →
    y.window.Pairwise (fun a b => a.seq ≠ b.seq) →
    y.release.placement = .present f ∧
    (let left := y.window.filter fun x => decide (x.seq ≠ y.e)
     if y.p < left.length ∧ ∃ x ∈ left, x.seq = y.e + 1#16 then
       y.release.drops = 1 ∧ y.release.sync =
         { y with
           e := y.e + 2#16, h := 0, repeatMark := true
           window := left.filter fun x => decide (x.seq ≠ y.e + 1#16) }
     else
       y.release.drops = 0 ∧
         y.release.sync = { y with e := y.e + 1#16, h := 0, repeatMark := true, window := left }))

/-- The window holds at most w frames at distinct positions 0 to w - 1 after every arrival and every release. -/
def Obligations.WindowStaysWithinItsDepth : Prop :=
  let good (y : Synchroniser) : Prop :=
    1 ≤ y.w ∧ y.w ≤ 8 ∧ y.window.length ≤ y.w ∧ (∀ x ∈ y.window, (x.seq - y.e).toNat < y.w) ∧
      y.window.Pairwise (fun a b => (a.seq - y.e).toNat < (b.seq - y.e).toNat)
  ∀ y : Synchroniser, good y → (y.st = .seeking → y.window = []) →
    (∀ f, good (y.arrive f).sync) ∧ good y.release.sync

/-! ### Takes -/

/-- ARM by its checks: BAD PORT, BUSY, BAD FIELD and CONFLICT queue the REPLY and change nothing else. An accepted ARM opens
the port, starts the synchroniser afresh, and sets every parameter of the channel to its clamped value; its REPLY is
DONE, with ADJUSTED when the clamp changed a value. That the tally is evaluated once, after all these changes, is the
model's choice (log 18). -/
def Obligations.ArmByItsChecks : Prop :=
  (∀ (s : State) (m : Heard) (v : BitVec 16) (c : Port),
    s.accepts m = true → m.target = .station v → 23 ≤ m.payload.length → parsePort m.payload = some c →
    (s.chan c).take.st = .idle → (parseArm m.payload).feed ≠ 0#16 →
    (∀ d, (s.chan d).take.st ≠ .idle → (s.chan d).port.feedId ≠ some (parseArm m.payload).feed) →
    let asked := armParams (parseArm m.payload) s.status.cfg.params
    let x := clampParams asked
    exec (.arm m) s = .next
      (State.reply m.sender .done (decide (x ≠ asked)) (m.payload.getD 0 0#8) 0x10#8
        (State.retally c (s.setChan c
          { port := { (s.chan c).port with
              opened := true, feedId := some (parseArm m.payload).feed, gating := x.gating, fwt := x.fwt,
              rx := .hunt [], interrupted := .hunt [], waitTimer := none, consecBad := 0, feed := .lost .silent,
              firstSinceArm := true, faultMark := false }
            sync := { (s.chan c).sync with
              w := x.w, p := x.p, g := x.g, st := .seeking, window := [], h := 0, repeatMark := false }
            take := { (s.chan c).take with
              st := .armed, segLen := x.segLen, k := x.k, twin := x.twin, buffer := none, active := none,
              cueEmpty := false, holdOver := 0 }
            sel := { (s.chan c).sel with
              n := x.n, d := x.d, target := x.target, bucket := x.bucket, qMin := x.qMin, qMax := x.qMax,
              a := 0, fullness := 0 } })))) ∧
(∀ (s : State) (m : Heard) (v : BitVec 16),
    s.accepts m = true → m.target = .station v → 23 ≤ m.payload.length →
    let answer (code : ReplyCode) := State.reply m.sender code false (m.payload.getD 0 0#8) 0x10#8 s
    (parsePort m.payload = none → exec (.arm m) s = .next (answer .badPort)) ∧
    ∀ c, parsePort m.payload = some c →
      ((s.chan c).take.st ≠ .idle → exec (.arm m) s = .next (answer .busy)) ∧
      ((s.chan c).take.st = .idle → (parseArm m.payload).feed = 0#16 →
        exec (.arm m) s = .next (answer .badField)) ∧
      ((s.chan c).take.st = .idle → (parseArm m.payload).feed ≠ 0#16 →
        (∃ d, (s.chan d).take.st ≠ .idle ∧ (s.chan d).port.feedId = some (parseArm m.payload).feed) →
        exec (.arm m) s = .next (answer .conflict)))

/-- DISARM by the channel state: ARMED goes to IDLE with its port closed, its window empty and its cue gone; every other
state refuses. That the tally is evaluated once, after the port has closed and the channel is IDLE, is the model's choice
(log 18). -/
def Obligations.DisarmByState : Prop :=
  ∀ (s : State) (m : Heard) (v : BitVec 16), s.accepts m = true → m.target = .station v → m.payload ≠ [] →
    let answer (code : ReplyCode) (t : State) := State.reply m.sender code false (m.payload.getD 0 0#8) 0x11#8 t
    (parsePort m.payload = none → exec (.disarm m) s = .next (answer .badPort s)) ∧
    ∀ c, parsePort m.payload = some c →
      ((s.chan c).take.st = .armed →
        exec (.disarm m) s = .next (answer .done (State.retally c (s.setChan c
          { port := { (s.chan c).port with
              opened := false, rx := .hunt [], waitTimer := none, feed := .lost .silent }
            sync := { (s.chan c).sync with window := [], st := .seeking, h := 0 }
            take := { (s.chan c).take with st := .idle, buffer := none, active := none, holdOver := 0 }
            sel := (s.chan c).sel })))) ∧
      ((s.chan c).take.st = .recording ∨ (s.chan c).take.st = .ending →
        exec (.disarm m) s = .next (answer .busy s)) ∧
      ((s.chan c).take.st = .idle → exec (.disarm m) s = .next (answer .notArmed s))

/-- CUE by the checks of R61, whichever way it is addressed: the first that fails gives the reply, and a cue that passes is
placed in the empty buffer. -/
def Obligations.CueChecked : Prop :=
  ∀ (s : State) (m : Heard), s.accepts m = true → 8 ≤ m.payload.length →
    let q := parseCue m.payload
    let answer (code : ReplyCode) (t : State) := State.answered m code false (m.payload.getD 0 0#8) 0x12#8 t
    (s.commandPort m = none → exec (.cue m) s = .next (answer .badPort s)) ∧
    ∀ c, s.commandPort m = some c →
      ((s.chan c).take.st = .idle → exec (.cue m) s = .next (answer .notArmed s)) ∧
      ((s.chan c).take.st = .ending → exec (.cue m) s = .next (answer .busy s)) ∧
      ((s.chan c).take.st = .armed ∨ (s.chan c).take.st = .recording →
        (q.clip = 0#32 ∧ (q.tie = false ∨ (s.chan c).take.st = .armed) →
          exec (.cue m) s = .next (answer .badField s)) ∧
        (¬ (q.clip = 0#32 ∧ (q.tie = false ∨ (s.chan c).take.st = .armed)) → (s.chan c).take.buffer ≠ none →
          exec (.cue m) s = .next (answer .busy s)) ∧
        (¬ (q.clip = 0#32 ∧ (q.tie = false ∨ (s.chan c).take.st = .armed)) → (s.chan c).take.buffer = none →
          exec (.cue m) s =
            .next (answer .done (s.onTake c fun t => { t with buffer := some q, cueEmpty := false }))))

/-- STOP and CUT by the channel state, whichever way they are addressed, and hold-over expiry. In RECORDING and ENDING a CUT
closes the OPEN segment at once, not torn, ends the take and queues TAKE END (CUT); hold-over expiry closes it torn and
queues TAKE END (LOSS). A tick settles its own expiry, so that a state with the counter above k is left for the command is
the model's choice alone (log 4). -/
def Obligations.StopCutAndHoldOver : Prop :=
  (∀ (s : State) (m : Heard), s.accepts m = true → m.payload ≠ [] →
    let answer (code : ReplyCode) (t : State) := State.answered m code false (m.payload.getD 0 0#8) 0x13#8 t
    (s.commandPort m = none → exec (.stop m) s = .next (answer .badPort s)) ∧
    ∀ c, s.commandPort m = some c →
      ((s.chan c).take.st = .recording →
        exec (.stop m) s =
          .next (answer .done (State.retally c (s.onTake c fun t => { t with st := .ending, buffer := none })))) ∧
      ((s.chan c).take.st = .armed → (s.chan c).take.buffer ≠ none →
        exec (.stop m) s = .next (answer .done (s.onTake c fun t => { t with buffer := none }))) ∧
      ((s.chan c).take.st = .armed → (s.chan c).take.buffer = none →
        exec (.stop m) s = .next (answer .notArmed s)) ∧
      ((s.chan c).take.st = .ending → exec (.stop m) s = .next (answer .busy s)) ∧
      ((s.chan c).take.st = .idle → exec (.stop m) s = .next (answer .notArmed s))) ∧
(∀ (s : State) (m : Heard), s.accepts m = true → m.payload ≠ [] →
    let answer (code : ReplyCode) (t : State) := State.answered m code false (m.payload.getD 0 0#8) 0x14#8 t
    (s.commandPort m = none → exec (.cut m) s = .next (answer .badPort s)) ∧
    ∀ c, s.commandPort m = some c →
      ((s.chan c).take.st = .recording ∨ (s.chan c).take.st = .ending →
        exec (.cut m) s =
          .next (answer .done (State.channelNotice .takeEnd 0x03#8 c (State.retally c
            (State.onTake c (fun t => { t with st := .armed, active := none, holdOver := 0, buffer := none })
              (s.closeOpen false c)))))) ∧
      ((s.chan c).take.st = .armed ∨ (s.chan c).take.st = .idle →
        exec (.cut m) s = .next (answer .notArmed s))) ∧
(∀ (s : State) (c : Port), (s.chan c).take.st = .recording → (s.chan c).take.k < (s.chan c).take.holdOver →
    exec (.holdOverExpiry c) s =
      .next (State.channelNotice .takeEnd 0x04#8 c (State.retally c
        (State.onTake c (fun t => { t with st := .armed, active := none, holdOver := 0, buffer := none })
          (s.closeOpen true c)))))

/-- RESET CHANNEL closes the channel and frees its records that are OPEN, CLOSING, DECIDING or HELD, in index order: their
queued jobs leave the job queue, a job of theirs in progress is marked withdrawn, and their pages join the tail of the
free list. The REPLY is DONE, and nothing else changes: every other record and channel, the evictions counter and every
other block stay as they are. A port above 3 is answered BAD PORT and changes nothing else. The tally is evaluated once,
after all the changes (the model's choice, log 18). -/
def Obligations.ResetChannelFreesItsRecords : Prop :=
  (∀ (s : State) (m : Heard) (v : BitVec 16) (c : Port),
    s.accepts m = true → m.target = .station v → m.payload ≠ [] → parsePort m.payload = some c →
    let closed := s.setChan c
      { port := { (s.chan c).port with
          opened := false, rx := .hunt [], waitTimer := none, feed := .lost .silent, faultMark := false }
        sync := { (s.chan c).sync with window := [], st := .seeking, h := 0 }
        take := { (s.chan c).take with
          st := .idle, buffer := none, active := none, holdOver := 0, cueEmpty := false }
        sel := (s.chan c).sel }
    let mine (i : RecIx) : Bool := (s.record i).channel == c && ((s.record i).st == .opened ||
      (s.record i).st == .closing || (s.record i).st == .deciding || (s.record i).st == .held)
    let records := Vector.ofFn fun i : RecIx => if mine i = true then Record.cleared else s.record i
    let freed := ((List.finRange 64).filter mine).flatMap fun i => (s.record i).essPages ++ (s.record i).brwPages
    let jobs := match s.browse.coder, s.browse.jobs with
      | .coding _, j :: rest => (if mine j.record = true then { j with withdrawn := true } else j) ::
          rest.filter fun x => x.withdrawn || !mine x.record
      | _, js => js.filter fun x => x.withdrawn || !mine x.record
    exec (.resetChannel m) s = .next (State.reply m.sender .done false (m.payload.getD 0 0#8) 0x15#8 (State.retally c
      { closed with
        pool := { s.pool with records := records, free := s.pool.free ++ freed }
        browse := { s.browse with jobs := jobs } }))) ∧
(∀ (s : State) (m : Heard) (v : BitVec 16),
    s.accepts m = true → m.target = .station v → m.payload ≠ [] → parsePort m.payload = none →
    exec (.resetChannel m) s = .next (State.reply m.sender .badPort false (m.payload.getD 0 0#8) 0x15#8 s))

/-- A boundary closes the OPEN segment, then goes by the channel state as it stands. ARMED with a cue in the buffer, it
starts a take: the cue is in force, its clip begins at segment 0, the channel is RECORDING, CUE EMPTY and then TAKE START
are queued. ARMED without a cue, nothing more. ENDING, the take ends with TAKE END (STOP). RECORDING, the active cue stays,
gives way to the buffered one (TIE goes on with the clip and its numbers), or ends with TAKE END (NORMAL). A boundary that
leaves the channel RECORDING consumes a segment number, counts a timed cue down, and opens a segment under the clip's key,
or none under PAUSE. That the opening may take a record which the close has freed is the model's choice (log 29). -/
def Obligations.BoundaryStartsATake : Prop :=
  (∀ (s : State) (c : Port) (q : Cue), (s.chan c).take.st = .armed → (s.chan c).take.buffer = some q →
    s.openRecord c = none →
    ((s.boundary c).chan c).take =
      { (s.chan c).take with
        st := .recording, buffer := none, active := some q, cueEmpty := true, clip := q.clip, nextSeg := 1#16,
        remaining := q.length - 1, holdOver := 0, overruns := ((s.boundary c).chan c).take.overruns } ∧
    ((s.boundary c).chan c).sel = { (s.chan c).sel with a := (s.chan c).sel.d - (s.chan c).sel.n, fullness := 0 }) ∧
(∀ (s : State) (c : Port),
    let t := (s.chan c).take
    let closed := s.closeOpen false c
    let newClip (u : State) : State := State.onSel c (fun x => { x with a := x.d - x.n, fullness := 0 })
      (State.channelNotice .takeStart 0x00#8 c (u.channelNotice .cueEmpty 0x00#8 c))
    let ended (reason : Byte) : State := State.channelNotice .takeEnd reason c (State.retally c
      (closed.onTake c fun t => { t with st := .armed, active := none, holdOver := 0 }))
    (t.st = .armed → t.buffer = none → s.boundary c = closed) ∧
    (∀ q, t.st = .armed → t.buffer = some q →
      s.boundary c = State.openSpan c (newClip (State.retally c (closed.onTake c fun t =>
        { t with
          st := .recording, buffer := none, active := some q, cueEmpty := true, clip := q.clip, nextSeg := 0#16,
          remaining := q.length, holdOver := 0 })))) ∧
    (t.st = .ending → t.buffer = none → s.boundary c = ended 0x02#8) ∧
    (∀ q, t.st = .recording → t.active = some q →
      ((q.length = 0 ∧ t.buffer = none) ∨ (q.length ≠ 0 ∧ t.remaining ≠ 0) → s.boundary c = closed.openSpan c) ∧
      (∀ b, q.length = 0 ∨ t.remaining = 0 → t.buffer = some b →
        (b.tie = true → s.boundary c = State.openSpan c (State.channelNotice .cueEmpty 0x00#8 c
          (closed.onTake c fun t =>
            { t with buffer := none, active := some b, cueEmpty := true, remaining := b.length }))) ∧
        (b.tie = false → s.boundary c = State.openSpan c (newClip (closed.onTake c fun t =>
          { t with
            buffer := none, active := some b, cueEmpty := true, remaining := b.length, clip := b.clip,
            nextSeg := 0#16 })))) ∧
      (q.length ≠ 0 → t.remaining = 0 → t.buffer = none → s.boundary c = ended 0x01#8))) ∧
(∀ (s : State) (c : Port) (q : Cue), (s.chan c).take.active = some q →
    let key : Key :=
      { feed := (s.chan c).port.feedId.getD 0#16, clip := (s.chan c).take.clip, seg := (s.chan c).take.nextSeg,
        first := s.ref.count }
    let next := s.onTake c fun t =>
      { t with remaining := if q.length = 0 then t.remaining else t.remaining - 1, nextSeg := t.nextSeg + 1#16 }
    s.openSpan c = if q.pause = true then next else next.openSegment c key)

/-! ### Segments and the staging pool -/

/-- Freeing a record joins its essence pages, then its browse pages, to the tail of the free list, and clears it alone. A page
request that would exceed the list's bound fails at once. Any other takes its pages one at a time from the head of the free
list, each followed by the low-mark test, and fails where a page is needed and none is free; the pages taken then go back to
the tail of the free list in their order. So where nothing need be evicted, or nothing can be, it takes the first pages of the
free list, and succeeds exactly when there are enough. A request appends exactly the pages asked for, or leaves the list as it
was. Neither loses or doubles a page. The oldest HELD
record is the one of the lowest decision time and then of the lowest index; its eviction frees it, is counted and queues
EVICTED; the low mark is met by evictions while a record is HELD. An opening is absent with reason KEY when its key is in
use, else takes the FREE record of lowest index, else evicts the oldest HELD record and takes that one, else is absent with
reason RECORDS; an absent segment is counted and queues OVERRUN. -/
def Obligations.PagesGivenBackAndRequested : Prop :=
  (∀ (s : State) (i : RecIx),
    (s.freeRecord i).pool.free = s.pool.free ++ ((s.record i).essPages ++ (s.record i).brwPages) ∧
    (s.freeRecord i).record i = Record.cleared ∧
    (∀ j, j ≠ i → (s.freeRecord i).record j = s.record j) ∧
    (∀ p, pageCount (s.freeRecord i) p = pageCount s p)) ∧
(∀ (s : State) (i : RecIx) (l : PageList) (n : Nat), (s.record i).st ≠ .held →
    (∀ t, s.requestPages i l n = (t, true) →
      ((t.record i).pages l).length = ((s.record i).pages l).length + n ∧
        (s.record i).pages l <+: (t.record i).pages l) ∧
    (∀ t, s.requestPages i l n = (t, false) → (t.record i).pages l = (s.record i).pages l) ∧
    (∀ p, pageCount (s.requestPages i l n).1 p = pageCount s p) ∧
    (s.requestPages i l n).1.mem = s.mem ∧ (s.requestPages i l n).1.chans = s.chans) ∧
(pageLimit .essence = 1024 ∧ pageLimit .browse = 128) ∧
(∀ (s : State) (i : RecIx) (l : PageList) (n : Nat),
    let held := (s.record i).pages l
    let taken := s.takePages i l n
    let withFree (u : State) (free : List Nat) : State := { u with pool := { u.pool with free := free } }
    (pageLimit l < held.length + n → s.requestPages i l n = (s, false)) ∧
    (held.length + n ≤ pageLimit l →
      (taken.2 = true → s.requestPages i l n = taken) ∧
      (taken.2 = false → s.requestPages i l n =
        (let pages := (taken.1.record i).pages l
         ((withFree taken.1 (taken.1.pool.free ++ pages.drop held.length)).onRec i
            fun r => r.withPages l (pages.take held.length), false))) ∧
      (n ≤ s.pool.free.length → s.status.cfg.lowMark + n ≤ s.pool.free.length ∨ s.oldestHeld = none →
        s.requestPages i l n =
          ((withFree s (s.pool.free.drop n)).onRec i fun r => r.withPages l (held ++ s.pool.free.take n), true)) ∧
      (s.pool.free.length < n → s.oldestHeld = none → s.requestPages i l n = (s, false))) ∧
    s.takePages i l 0 = (s, true) ∧
    (s.pool.free = [] → s.takePages i l (n + 1) = (s, false)) ∧
    ∀ p rest, s.pool.free = p :: rest →
      s.takePages i l (n + 1) =
        State.takePages i l n (State.lowMarkTest 64 ((withFree s rest).onRec i fun r => r.withPages l (held ++ [p])))) ∧
(∀ s : State,
    (s.oldestHeld = none ↔ ∀ i, (s.record i).st ≠ .held) ∧
    (∀ i, s.oldestHeld = some i → (s.record i).st = .held ∧ ∀ j, (s.record j).st = .held → j ≠ i →
      (s.record i).decisionNumber < (s.record j).decisionNumber ∨
        ((s.record i).decisionNumber = (s.record j).decisionNumber ∧ i < j)) ∧
    (s.status.cfg.lowMark ≤ s.pool.free.length → s.lowMarkTest 64 = s) ∧
    (∀ i n, s.pool.free.length < s.status.cfg.lowMark → s.oldestHeld = some i →
      s.lowMarkTest (n + 1) = (s.evict i).lowMarkTest n) ∧
    ((s.lowMarkTest 64).pool.free.length < s.status.cfg.lowMark → (s.lowMarkTest 64).oldestHeld = none)) ∧
(∀ (s : State) (i : RecIx), s.evict i =
    (let freed := s.freeRecord i
     State.channelNotice .evicted 0x00#8 (s.record i).channel
      { freed with pool := { freed.pool with evictions := min 65535 (s.pool.evictions + 1) } })) ∧
(∀ (s : State) (c : Port) (key : Key),
    let absent (reason : Byte) : State := State.channelNotice .overrun reason c
      (s.onTake c fun t => { t with overruns := min 65535 (t.overruns + 1) })
    let opened : Record := { Record.cleared with
      st := .opened, channel := c, key := key, segLen := (s.chan c).take.segLen, twin := (s.chan c).take.twin }
    let inUse (i : RecIx) : Prop := (s.record i).st ≠ .free ∧ (s.record i).key = key
    ((∃ i, inUse i) → s.openSegment c key = absent 0x02#8) ∧
    ((∀ i, ¬ inUse i) →
      (∀ i, (s.record i).st = .free → (∀ j, j < i → (s.record j).st ≠ .free) →
        s.openSegment c key = s.onRec i fun _ => opened) ∧
      ((∀ i, (s.record i).st ≠ .free) →
        (∀ i, s.oldestHeld = some i → s.openSegment c key = (s.evict i).onRec i fun _ => opened) ∧
        (s.oldestHeld = none → s.openSegment c key = absent 0x01#8))))

/-- A PRESENT packed into an OPEN record stands in its essence pages byte after byte from the essence byte count on, and every
other byte of staging memory stays; its size and its timecode are entered. A placement appended to an OPEN record adds
exactly one map entry and one to its counts, by its kind, and is then offered to the selector; a PRESENT for which no pages
are found is entered as a FILL without its KEY bit. Beside reset and the commands that make a house
tick, CODER_COMPLETION alone writes staging memory. -/
def Obligations.StagingMemoryWrittenByPackingAlone : Prop :=
  (∀ (s t : State) (i : RecIx) (f : FrameRecord), s.mem.wf = true → (s.record i).st = .opened →
    s.pack i f = (t, true) → (t.record i).essPages.Nodup →
    let address (k : Nat) := streamAddress (t.record i).essPages ((s.record i).essBytes + k)
    (∀ (k : Nat) (b : Byte), f.payload[k]? = some b → t.mem.read (address k) = b) ∧
    (∀ a, (∀ k, k < f.payload.length → a ≠ address k) → t.mem.read a = s.mem.read a) ∧
    (t.record i).essBytes = (s.record i).essBytes + f.payload.length ∧
    (t.record i).sizes = (s.record i).sizes ++ [f.payload.length] ∧
    (t.record i).timecode = (s.record i).timecode.or (some f.timecode)) ∧
(∀ (s : State) (c : Port) (i : RecIx) (f : FrameRecord),
    let entered (kind : PlacementKind) (key : Bool) (counts : Counts → Counts) (frame : Option (Nat × Nat))
        (u : State) : State :=
      State.offer c i frame (u.onRec i fun r =>
        { r with
          map := r.map ++ [{ kind := kind, key := key }], counts := counts r.counts
          damage := damageScore (counts r.counts) })
    let filled (n : Counts) : Counts :=
      { n with placements := min 65535 (n.placements + 1), fills := min 65535 (n.fills + 1) }
    ((s.pack i f).2 = true → s.appendPlacement c i (.present f) =
      entered .present f.key
        (fun n => { n with placements := min 65535 (n.placements + 1), present := min 65535 (n.present + 1) })
        (some ((s.record i).essBytes, f.payload.length)) (s.pack i f).1) ∧
    ((s.pack i f).2 = false →
      s.appendPlacement c i (.present f) = entered .fill false filled none (s.pack i f).1) ∧
    (s.appendPlacement c i .repeated =
      entered .repeated false
        (fun n => { n with placements := min 65535 (n.placements + 1), repeats := min 65535 (n.repeats + 1) })
        none s) ∧
    (s.appendPlacement c i .fill = entered .fill false filled none s)) ∧
(∀ (s : State) (c : Port) (i : RecIx) (x : Placement), (s.record i).st = .opened →
    ∃ e, ((s.appendPlacement c i x).record i).map = (s.record i).map ++ [e]) ∧
(∀ (c : Instr) (s t : State), exec c s = .next t → c ≠ .powerOnReset →
    (∀ time tick, c ≠ .referencePulse time tick ∧ c ≠ .lossDeadlineExpiry time tick ∧ c ≠ .flywheelTick time tick) →
    (∀ coded, c ≠ .coderCompletion coded) → t.mem = s.mem)

/-- A close sets CLOSING, SHORT and TORN by its kind; with browse jobs pending the drain timer starts, and with none the record
is close complete at once. Close complete queues a REPORT in every case; then the record is freed when STORED-ELSEWHERE
is set, goes to DECIDING with its report window started when twin mode is on, and otherwise joins the write queue. A
channel's OPEN segment is the record that is OPEN and the channel's; closing it does so where there is one, and nothing where
there is none. -/
def Obligations.CloseAndCloseComplete : Prop :=
  (∀ (s : State) (torn : Bool) (i : RecIx),
    ((s.record i).pendingJobs ≠ 0 → s.closeRecord torn i = s.onRec i fun r =>
      { r with
        st := .closing, short := decide (r.counts.placements < r.segLen), torn := torn,
        drainTimer := some s.status.cfg.drain }) ∧
    ((s.record i).pendingJobs = 0 → s.closeRecord torn i = State.closeComplete i (s.onRec i fun r =>
      { r with st := .closing, short := decide (r.counts.placements < r.segLen), torn := torn }))) ∧
(∀ (s : State) (i : RecIx),
    let reported := State.transmit (.report (s.record i).key (s.record i).counts.placements (s.record i).damage
      (s.record i).short (s.record i).torn) (s.onRec i fun r => { r with drainTimer := none })
    ((s.record i).storedElsewhere = true → s.closeComplete i = reported.freeRecord i) ∧
    ((s.record i).storedElsewhere = false → (s.record i).twin = true →
      s.closeComplete i =
        reported.onRec i fun r => { r with st := .deciding, windowTimer := some s.status.cfg.rw }) ∧
    ((s.record i).storedElsewhere = false → (s.record i).twin = false →
      s.closeComplete i = reported.joinWriteQueue i)) ∧
(∀ (s : State) (c : Port),
    let mine (i : RecIx) : Prop := (s.record i).st = .opened ∧ (s.record i).channel = c
    (s.openRecord c = none ↔ ∀ i, ¬ mine i) ∧
    (∀ i, s.openRecord c = some i → mine i ∧ ∀ j, j < i → ¬ mine j) ∧
    ∀ torn, (s.openRecord c = none → s.closeOpen torn c = s) ∧
      ∀ i, s.openRecord c = some i → s.closeOpen torn c = s.closeRecord torn i)

/-! ### Browse copies -/

/-- The quantiser of a job lies within q_min and q_max whenever the fullness lies within the bucket. A placement offered to the
selector raises the accumulator by n, and at d it is selected, which takes d off: a PRESENT becomes a job at the tail of the
queue with its entry reserved, and an IDLE coder starts on the head job; with 12 jobs it is a SKIP and counts one browse
skip; a REPEAT or a FILL is a HOLD. -/
def Obligations.QuantiserWithinItsRange : Prop :=
  (∀ x : Selector, x.qMin ≤ x.qMax → x.fullness ≤ x.bucket →
    quantiser x = x.qMin + (x.qMax - x.qMin) * x.fullness / x.bucket ∧ x.qMin ≤ quantiser x ∧
      quantiser x ≤ x.qMax) ∧
(∀ (s : State) (c : Port) (i : RecIx) (frame : Option (Nat × Nat)),
    let x := (s.chan c).sel
    let taken := s.onSel c fun x => { x with a := x.a + x.n - x.d }
    let entry (e : BrowseEntry) (u : State) : State := u.onRec i fun r => { r with entries := r.entries ++ [e] }
    (x.a + x.n < x.d → s.offer c i frame = s.onSel c fun x => { x with a := x.a + x.n }) ∧
    (x.d ≤ x.a + x.n → frame = none → s.offer c i frame = entry .hold taken) ∧
    (∀ offset length, x.d ≤ x.a + x.n → frame = some (offset, length) →
      (12 ≤ s.browse.jobs.length → s.offer c i frame =
        State.onSel c (fun x => { x with skips := min 65535 (x.skips + 1) }) (entry .skip taken)) ∧
      (s.browse.jobs.length < 12 → s.offer c i frame = State.startCoder
        (State.onRec i (fun r => { r with entries := r.entries ++ [.reserved], pendingJobs := r.pendingJobs + 1 })
          { taken with browse := { s.browse with jobs := s.browse.jobs ++
              [{ channel := c, record := i, entry := (s.record i).entries.length, offset := offset,
                 length := length, withdrawn := false }] } })))) ∧
(∀ s : State,
    (∀ j rest, s.browse.coder = .idle → s.browse.jobs = j :: rest →
      s.startCoder = { s with browse := { s.browse with coder := .coding (quantiser (s.chan j.channel).sel) } }) ∧
    (s.browse.coder ≠ .idle ∨ s.browse.jobs = [] → s.startCoder = s))

/-- A completion of a withdrawn job is discarded: the job leaves the queue, the coder takes the next job, and nothing else
changes. -/
def Obligations.WithdrawnCompletionDiscarded : Prop :=
  ∀ (s : State) (q : Nat) (j : Job) (rest : List Job) (coded : List Byte),
    s.browse.coder = .coding q → s.browse.jobs = j :: rest → j.withdrawn = true →
    exec (.coderCompletion coded) s = .next { s with
      browse :=
        { jobs := rest
          coder := match rest with
            | [] => .idle
            | k :: _ =>
              .coding ((s.chan k.channel).sel.qMin + ((s.chan k.channel).sel.qMax - (s.chan k.channel).sel.qMin) *
                (s.chan k.channel).sel.fullness / (s.chan k.channel).sel.bucket) } }

/-- A completion settled against the budget. An overflow of the bucket, or a frame for which no pages are found, is skipped:
SKIP, one browse skip, and the fullness drains one target. A kept frame is packed into the browse pages, its size is
entered, and the fullness moves by its size less one target. Then the pending count falls, the coder takes the next job,
and a CLOSING record with no job left is close complete. -/
def Obligations.CompletionSettled : Prop :=
  (∀ (s : State) (q : Nat) (j : Job) (rest : List Job) (coded : List Byte),
    s.browse.coder = .coding q → s.browse.jobs = j :: rest → j.withdrawn = false →
    let x := (s.chan j.channel).sel
    let r := s.record j.record
    let after (t : State) : State :=
      State.closeIfDrained j.record (State.nextJob (t.onRec j.record fun r =>
        { r with pendingJobs := r.pendingJobs - 1 }))
    let skipped (t : State) : State :=
      State.onSel j.channel (fun x =>
        { x with skips := min 65535 (x.skips + 1), fullness := x.fullness - x.target })
        (t.onRec j.record fun r => { r with entries := r.entries.set j.entry .skip })
    (x.bucket + x.target < x.fullness + coded.length →
      exec (.coderCompletion coded) s = .next (after (skipped s))) ∧
    (x.fullness + coded.length ≤ x.bucket + x.target →
      let request := s.requestPages j.record .browse (pagesFor (r.brwBytes + coded.length) - r.brwPages.length)
      (request.2 = false → exec (.coderCompletion coded) s = .next (after (skipped request.1))) ∧
      (request.2 = true → exec (.coderCompletion coded) s = .next (after
        (State.onSel j.channel (fun x => { x with fullness := x.fullness + coded.length - x.target })
          (State.onRec j.record (fun r =>
            { r with brwBytes := r.brwBytes + coded.length, entries := r.entries.set j.entry (.size coded.length) })
            { request.1 with
              mem := request.1.mem.writeStream (request.1.record j.record).brwPages r.brwBytes coded })))))) ∧
(∀ (s : State) (i : RecIx),
    ((s.record i).st = .closing → (s.record i).pendingJobs = 0 → s.closeIfDrained i = s.closeComplete i) ∧
    ((s.record i).st ≠ .closing ∨ (s.record i).pendingJobs ≠ 0 → s.closeIfDrained i = s)) ∧
(∀ s : State, s.nextJob = State.startCoder { s with browse := { jobs := s.browse.jobs.tail, coder := .idle } })

/-- Expiry of a record's drain timer: its queued jobs leave the queue, a job of it in progress is marked withdrawn, each
unsettled entry becomes SKIP and counts one browse skip, and the record is close complete with no pending job. -/
def Obligations.DrainTimerExpires : Prop :=
  ∀ (s : State) (i : RecIx) (q : Nat) (j : Job) (rest : List Job),
    (s.record i).st = .closing → (s.record i).drainTimer = some 0 →
    s.browse.coder = .coding q → s.browse.jobs = j :: rest →
    let mine := (j :: rest).filter fun x => x.record == i && !x.withdrawn
    exec (.drainTimerExpiry i) s = .next (State.closeComplete i
      (State.onSel (s.record i).channel (fun x => { x with skips := min 65535 (x.skips + mine.length) })
        (State.onRec i (fun r =>
          { r with entries := mine.foldl (fun es x => es.set x.entry .skip) r.entries, pendingJobs := 0 })
          { s with browse := { s.browse with
              jobs := (if j.record = i then { j with withdrawn := true } else j) ::
                rest.filter fun x => !(x.record == i && !x.withdrawn) } })))

/-! ### Copy arbitration -/

/-- A REPORT heard acts on the record of its key by twin mode and state: entered in the peer list, counted LATE REPORT,
counted UNMATCHED, or ignored. -/
def Obligations.ReportHeardByState : Prop :=
  ∀ (s : State) (m : Heard) (f : FeedId), s.accepts m = true → m.target = .feed f → 17 ≤ m.payload.length →
    let p : Peer := { station := m.sender, damage := field m.payload 14 2 }
    (s.findKey (parseKey m.payload) = none →
      exec (.reportHeard m) s =
        .next { s with arb := { s.arb with unmatched := min 65535 (s.arb.unmatched + 1) } }) ∧
    ∀ i, s.findKey (parseKey m.payload) = some i →
      ((s.record i).twin = false → exec (.reportHeard m) s = .next s) ∧
      ((s.record i).twin = true →
        ((s.record i).st = .opened ∨ (s.record i).st = .closing ∨ (s.record i).st = .deciding →
          exec (.reportHeard m) s = .next (s.onRec i fun r => { r with peers := enterPeer p r.peers })) ∧
        ((s.record i).st = .held ∨ (s.record i).st = .queued ∨ (s.record i).st = .writing ∨
            (s.record i).st = .indexing →
          exec (.reportHeard m) s =
            .next { s with arb := { s.arb with lateReport := min 65535 (s.arb.lateReport + 1) } }))

/-- A peer list stays at most 3 entries, one per station, in rank order; a second report of a station is ignored, and of
four entries the worst-ranked is dropped. -/
def Obligations.PeerListKeepsTheBest : Prop :=
  ∀ (p : Peer) (l : List Peer), l.length ≤ 3 → l.Pairwise (fun a b => a.station ≠ b.station) →
    l.Pairwise (fun a b => ranksBefore a b = true) →
    (enterPeer p l).length ≤ 3 ∧ (enterPeer p l).Pairwise (fun a b => a.station ≠ b.station) ∧
      (enterPeer p l).Pairwise (fun a b => ranksBefore a b = true) ∧
      ((∃ x ∈ l, x.station = p.station) → enterPeer p l = l) ∧
      ((∀ x ∈ l, x.station ≠ p.station) → l.length < 3 → (enterPeer p l).Perm (p :: l)) ∧
      ((∀ x ∈ l, x.station ≠ p.station) → l.length = 3 →
        ∃ w, (w :: enterPeer p l).Perm (p :: l) ∧ ∀ x ∈ enterPeer p l, ranksBefore x w = true)

/-- Expiry of a report window decides the record: with no peer ranked before it, it joins the write queue; otherwise it is
HELD behind the stations that rank before it, with its commit timer at cw times their number. The decision time is the house
count; that an expiry left until after a later tick reads the count of that tick is the model's choice (log 3). -/
def Obligations.ReportWindowDecides : Prop :=
  ∀ (s : State) (i : RecIx) (n : Station), s.status.station = some n →
    (s.record i).st = .deciding → (s.record i).windowTimer = some 0 →
    let r := s.record i
    let better := r.peers.filter fun p =>
      decide (p.damage < r.damage) || (decide (p.damage = r.damage) && decide (p.station < n))
    (better = [] →
      exec (.reportWindowExpiry i) s = .next (State.joinWriteQueue i (s.onRec i fun r =>
        { r with windowTimer := none, decisionTime := some s.ref.count, peers := [] }))) ∧
    (better ≠ [] →
      exec (.reportWindowExpiry i) s = .next (s.onRec i fun r =>
        { r with
          windowTimer := none, decisionTime := some s.ref.count, peers := [], st := .held,
          ahead := better.map Peer.station, commitTimer := some (s.status.cfg.cw * better.length) }))

/-- STORED heard for a key acts by the state of the record that holds it. A STORED that falls together with the event before
it is taken before the issue which that event allows, and the issue follows it (how that order is given is the model's
choice, log 20). -/
def Obligations.StoredHeardByState : Prop :=
  ∀ (s : State) (m : Heard) (together : Bool) (f : FeedId),
    s.accepts m = true → m.target = .feed f → 12 ≤ m.payload.length →
    let heard : Instr := .storedHeard { heard := m, together := together }
    let after (t : State) : State := if together = true then t.issue else t
    (s.findKey (parseKey m.payload) = none → exec heard s = .next (after s)) ∧
    ∀ i, s.findKey (parseKey m.payload) = some i →
      ((s.record i).st = .opened ∨ (s.record i).st = .closing →
        exec heard s = .next (after (s.onRec i fun r => { r with storedElsewhere := true }))) ∧
      ((s.record i).st = .deciding ∨ (s.record i).st = .held → exec heard s = .next (after (s.freeRecord i))) ∧
      ((s.record i).st = .queued →
        exec heard s = .next (after (State.freeRecord i
          { s with link := { s.link with queue := s.link.queue.filter (· != i) } }))) ∧
      ((s.record i).st = .writing ∨ (s.record i).st = .indexing → exec heard s = .next (after s))

/-- What a takeover leaves: the commit timer stopped, the ahead list empty, TAKEOVER queued, TAKEN-OVER set, the record at the
tail of the write queue, and the takeovers counter raised. While the link is FAILED a record takes over at no expiry: its timer
does not count there, and that one which has run out before and is left until then stays due is the model's choice (log 3,
log 32). -/
def Obligations.CommitTimerExpiryTakesOver : Prop :=
  ∀ (s : State) (i : RecIx), (s.record i).st = .held → (s.record i).commitTimer = some 0 →
    (s.link.st = .failed → exec (.commitTimerExpiry i) s = .next s) ∧
    (s.link.st ≠ .failed →
      let queued := State.joinWriteQueue i (State.transmit (.takeover (s.record i).key) (s.onRec i fun r =>
        { r with commitTimer := none, ahead := [], takenOver := true }))
      exec (.commitTimerExpiry i) s =
        .next { queued with arb := { queued.arb with takeovers := min 65535 (queued.arb.takeovers + 1) } })

/-- UNSTORED and TAKEOVER act on a HELD record that waits on their sender: UNSTORED removes the sender and takes over when
none is left, whatever the link state and the enable latch (the model's choice, log 32), else restarts the commit timer at cw;
TAKEOVER restarts it. In every other case they change nothing. -/
def Obligations.AnnouncementsOfStationsAhead : Prop :=
  ∀ (s : State) (m : Heard) (f : FeedId), s.accepts m = true → m.target = .feed f → 12 ≤ m.payload.length →
    ((∀ i, s.findKey (parseKey m.payload) = some i → (s.record i).st = .held → m.sender ∉ (s.record i).ahead) →
      exec (.unstoredHeard m) s = .next s ∧ exec (.takeoverHeard m) s = .next s) ∧
    ∀ i, s.findKey (parseKey m.payload) = some i → (s.record i).st = .held → m.sender ∈ (s.record i).ahead →
      (exec (.takeoverHeard m) s = .next (s.onRec i fun r => { r with commitTimer := some s.status.cfg.cw })) ∧
      (let left := (s.record i).ahead.filter (· != m.sender)
       (left = [] →
          let queued := State.joinWriteQueue i (State.transmit (.takeover (s.record i).key) (s.onRec i fun r =>
            { r with commitTimer := none, ahead := [], takenOver := true }))
          exec (.unstoredHeard m) s =
            .next { queued with arb := { queued.arb with takeovers := min 65535 (queued.arb.takeovers + 1) } }) ∧
       (left ≠ [] →
          exec (.unstoredHeard m) s = .next (s.onRec i fun r =>
            { r with ahead := left, commitTimer := some s.status.cfg.cw })))

/-! ### The store link -/

/-- An acknowledgement paired with the request of an OUTSTANDING tag frees the tag and acts by its status. On a record that is
not failed, OK marks a page acknowledged, and on the index queues STORED and frees the record; FULL marks the request
unwritten and halts the store; any other status fails the record. On a record that has failed the request is retired
whatever the status, with its last OUTSTANDING tag the record is announced UNSTORED and freed, and FULL still halts the
store. Then what can be issued is issued. One that is not paired counts STRAY. That an OUTSTANDING tag is paired in FAILED
too is the model's reading (log 26). -/
def Obligations.AcknowledgementByItsTag : Prop :=
  (∀ (s : State) (tag status : Byte) (k : TagIx) (q : TagRequest) (timer : Timer),
    s.running = true → s.link.st ≠ .clearing → k.val = tag.toNat → s.tag k = .outstanding q timer →
    (s.record q.record).progress.failed = false →
    let freed := s.setTag k .free
    (status = 0x00#8 → q.ref.part ≠ .index →
      exec (.acknowledgement tag status) s =
        .next (State.issue (freed.onRec q.record (Record.setMark q.ref .acknowledged)))) ∧
    (status = 0x00#8 → q.ref.part = .index →
      exec (.acknowledgement tag status) s =
        .next (State.issue (State.leaveWriteQueue q.record (State.freeRecord q.record
          (let told := freed.transmit (.stored (s.record q.record).key)
           { told with link := { told.link with stored := min 65535 (told.link.stored + 1) } }))))) ∧
    (status = 0x01#8 →
      exec (.acknowledgement tag status) s =
        .next (State.issue (State.haltStore 0x02#8 (freed.onRec q.record (Record.setMark q.ref .unwritten))))) ∧
    (status ≠ 0x00#8 → status ≠ 0x01#8 →
      exec (.acknowledgement tag status) s = .next (State.issue (freed.failRecord q.record)))) ∧
(∀ (s : State) (tag status : Byte) (k : TagIx) (q : TagRequest) (timer : Timer),
    s.running = true → s.link.st ≠ .clearing → k.val = tag.toNat → s.tag k = .outstanding q timer →
    (s.record q.record).progress.failed = true →
    let freed := s.setTag k .free
    let halted (t : State) : State := if status = 0x01#8 then t.haltStore 0x02#8 else t
    ((∃ k' q' timer', k' ≠ k ∧ s.tag k' = .outstanding q' timer' ∧ q'.record = q.record) →
      exec (.acknowledgement tag status) s = .next (State.issue (halted freed))) ∧
    ((∀ k' q' timer', k' ≠ k → s.tag k' = .outstanding q' timer' → q'.record ≠ q.record) →
      exec (.acknowledgement tag status) s = .next (State.issue (halted
        (State.leaveWriteQueue q.record (State.freeRecord q.record
          (let told := freed.transmit (.unstored (s.record q.record).key)
           { told with link := { told.link with fault := min 65535 (told.link.fault + 1) } }))))))) ∧
(∀ (s : State) (tag status : Byte), s.running = true →
    let stray (t : State) : State := { t with link := { t.link with stray := min 65535 (t.link.stray + 1) } }
    (s.link.st = .clearing ∨ 16 ≤ tag.toNat → exec (.acknowledgement tag status) s = .next (stray s)) ∧
    ∀ k : TagIx, k.val = tag.toNat → s.link.st ≠ .clearing →
      (s.tag k = .free → exec (.acknowledgement tag status) s = .next (stray s)) ∧
      (∀ r, s.tag k = .quarantined r →
        exec (.acknowledgement tag status) s = .next (State.issue (stray (s.setTag k .free)))))

/-- Expiry of a tag's store waiting timer: the tag is QUARANTINED and the request's record, unless failed already, fails. A
record that fails drops its unwritten marks, and with no OUTSTANDING tag left it is announced UNSTORED, counted in fault,
freed, and leaves the write queue. -/
def Obligations.StoreWaitingTimerExpires : Prop :=
  (∀ (s : State) (k : TagIx) (q : TagRequest), s.tag k = .outstanding q (some 0) →
    ((s.record q.record).progress.failed = false →
      exec (.storeWaitingTimerExpiry k) s = .next (State.failRecord q.record (s.setTag k (.quarantined q)))) ∧
    ((s.record q.record).progress.failed = true →
      exec (.storeWaitingTimerExpiry k) s = .next (State.settleFailed q.record (s.setTag k (.quarantined q))))) ∧
(∀ (s : State) (i : RecIx),
    let failed := s.onRec i fun r =>
      { r with progress := { marks := r.progress.marks.filter (fun x => x.2 != .unwritten), failed := true } }
    ((∃ k q timer, s.tag k = .outstanding q timer ∧ q.record = i) → s.failRecord i = failed) ∧
    ((∀ k q timer, s.tag k = .outstanding q timer → q.record ≠ i) →
      s.failRecord i = State.leaveWriteQueue i (State.freeRecord i
        (let told := failed.transmit (.unstored (s.record i).key)
         { told with link := { told.link with fault := min 65535 (told.link.fault + 1) } }))))

/-- The STORE-HALT line: an assertion edge clears a set latch, sets STORE HALTED and queues the notice, and finds nothing to
do when the latch is clear; a release edge changes the level alone. A message of another type changes nothing. A halt for
any reason, the line or FULL, does the same with its own reason in the notice. -/
def Obligations.StoreHaltLine : Prop :=
  (∀ s : State, s.running = true →
    (s.link.latch = true →
      exec .storeHaltAssert s = .next (State.notice .storeHalted 0x01#8 0xFF#8 s.ref.count { s with
        storeHalt := true, link := { s.link with latch := false, haltedLatch := true } })) ∧
    (s.link.latch = false → exec .storeHaltAssert s = .next { s with storeHalt := true }) ∧
    exec .storeHaltRelease s = .next { s with storeHalt := false } ∧
    ∀ kind, kind ≠ 0x02#8 → kind ≠ 0x04#8 → exec (.storeLinkOtherType kind) s = .next s) ∧
(∀ (s : State) (reason : Byte),
    (s.link.latch = true →
      s.haltStore reason = State.notice .storeHalted reason 0xFF#8 s.ref.count
        { s with link := { s.link with latch := false, haltedLatch := true } }) ∧
    (s.link.latch = false → s.haltStore reason = s))

/-- RESUME STORE: HALTED with the line asserted, BUSY unless the link is READY, otherwise DONE with the latch set and
issuing restarted. Issuing makes one request after another, on the lowest FREE tag each, until the link is not READY, the
latch is clear, no tag is FREE or nothing is left to request: an index that is due, else an unwritten page, else the next
page at the issue point, of the record nearest the head of the queue. A request carries its tag, key, place, LAST and data,
and takes its record to WRITING or INDEXING. A record that is QUEUED joins the tail of the write queue and is tested for
issue; a STORED that falls together with the event comes before the issue (how that order is given is the model's choice,
log 20). -/
def Obligations.ResumeStoreByState : Prop :=
  (∀ (s : State) (m : Heard), s.accepts m = true → (∀ f, m.target ≠ .feed f) →
    let answer (code : ReplyCode) (t : State) := State.answered m code false 0xFF#8 0x17#8 t
    (s.storeHalt = true → exec (.resumeStore m) s = .next (answer .halted s)) ∧
    (s.storeHalt = false → s.link.st ≠ .ready → exec (.resumeStore m) s = .next (answer .busy s)) ∧
    (s.storeHalt = false → s.link.st = .ready → s.link.latch = true →
      exec (.resumeStore m) s = .next (answer .done s)) ∧
    (s.storeHalt = false → s.link.st = .ready → s.link.latch = false →
      exec (.resumeStore m) s =
        .next (answer .done (State.issue { s with link := { s.link with latch := true } })))) ∧
(∀ s : State,
    (∀ m rest, s.pending = .storedHeard m :: rest → m.together = true → s.issue = s) ∧
    ((∀ m rest, s.pending = .storedHeard m :: rest → m.together = false) →
      s.issue = s.issueUpTo 16 ∧
      (s.issue.link.st ≠ .ready ∨ s.issue.link.latch = false ∨ (∀ k, s.issue.tag k ≠ .free) ∨
        s.issue.chooseRequest = none)) ∧
    ∀ n, (s.link.st ≠ .ready ∨ s.link.latch = false ∨ (∀ k, s.tag k ≠ .free) ∨ s.chooseRequest = none →
        s.issueUpTo n = s) ∧
      ∀ k i ref, s.link.st = .ready → s.link.latch = true → s.tag k = .free → (∀ j, j < k → s.tag j ≠ .free) →
        s.chooseRequest = some (i, ref) →
        let r := s.record i
        let request : StoreMessage := .request k r.key ref (r.isLast ref) (s.requestData r ref)
        s.issueUpTo (n + 1) = State.issueUpTo n (State.onRec i
          (fun r => { r.setMark ref .issued with
            st := if ref.part = .index then .indexing else if r.st = .queued then .writing else r.st })
          (State.setTag k (.outstanding { record := i, ref := ref } (some s.status.cfg.swt))
            { s with storeOut := s.storeOut ++ [request] }))) ∧
(∀ s : State,
    let pages (r : Record) : List PageRef :=
      (List.range r.essPages.length).map (fun n => { part := .essence, page := n }) ++
        (List.range r.brwPages.length).map (fun n => { part := .browse, page := n })
    let index : PageRef := { part := .index, page := 0 }
    let due (i : RecIx) : Bool := !(s.record i).progress.failed &&
      (pages (s.record i)).all (fun ref => (s.record i).progress.mark ref == some .acknowledged) &&
      ((s.record i).progress.mark index == none || (s.record i).progress.mark index == some .unwritten)
    let first (m : Option Mark) (i : RecIx) : Option (RecIx × PageRef) :=
      if (s.record i).progress.failed = true then none
      else ((pages (s.record i)).find? fun ref => (s.record i).progress.mark ref == m).map fun ref => (i, ref)
    s.chooseRequest = match s.link.queue.find? due with
      | some i => some (i, index)
      | none => match s.link.queue.findSome? (first (some .unwritten)) with
        | some x => some x
        | none => s.link.queue.findSome? (first none)) ∧
(∀ (s : State) (r : Record) (n : Nat),
    (r.isLast { part := .essence, page := n } = decide (n + 1 = r.essPages.length)) ∧
    (r.isLast { part := .browse, page := n } = decide (n + 1 = r.brwPages.length)) ∧
    (r.isLast { part := .index, page := 0 } = true) ∧
    (s.requestData r { part := .index, page := 0 } = indexRecord s.stationNumber r) ∧
    (n < r.essPages.length →
      let data := s.requestData r { part := .essence, page := n }
      data.length = (if n + 1 = r.essPages.length then r.essBytes - 131072 * n else 131072) ∧
        ∀ k, k < data.length → data[k]? = some (s.mem.read (131072 * r.essPages.getD n 0 + k))) ∧
    (n < r.brwPages.length →
      let data := s.requestData r { part := .browse, page := n }
      data.length = (if n + 1 = r.brwPages.length then r.brwBytes - 131072 * n else 131072) ∧
        ∀ k, k < data.length → data[k]? = some (s.mem.read (131072 * r.brwPages.getD n 0 + k)))) ∧
(∀ (s : State) (i : RecIx),
    let queued := s.onRec i fun r => { r with st := .queued }
    s.joinWriteQueue i = State.issue { queued with link := { s.link with queue := s.link.queue ++ [i] } })

/-- RESET STORE: BUSY in CLEARING; otherwise every tag is FREE, every record that was WRITING or INDEXING in the queue is
given up with an UNSTORED queued and freed, in queue order, the latch is clear, a CLEAR has been sent and the link is
CLEARING with the clear timer at swt. -/
def Obligations.ResetStoreClears : Prop :=
  (∀ (s : State) (m : Heard), s.accepts m = true → (∀ f, m.target ≠ .feed f) →
    let answer (code : ReplyCode) (t : State) := State.answered m code false 0xFF#8 0x18#8 t
    (s.link.st = .clearing → exec (.resetStore m) s = .next (answer .busy s)) ∧
    (s.link.st ≠ .clearing →
      let freed : State := { s with link := { s.link with tags := Vector.replicate 16 .free } }
      let given := s.link.queue.foldl State.giveUp freed
      exec (.resetStore m) s = .next (answer .done { given with
        storeOut := given.storeOut ++ [.clear]
        link := { given.link with latch := false, st := .clearing, clearTimer := some s.status.cfg.swt } }) ∧
      (∀ i, i ∈ s.link.queue → (s.record i).st = .writing ∨ (s.record i).st = .indexing →
        given.record i = Record.cleared ∧ i ∉ given.link.queue) ∧
      (∀ i, (s.record i).st ≠ .writing → (s.record i).st ≠ .indexing → given.record i = s.record i))) ∧
(∀ (s : State) (i : RecIx),
    ((s.record i).st = .writing ∨ (s.record i).st = .indexing →
      s.giveUp i = State.leaveWriteQueue i (State.freeRecord i (s.transmit (.unstored (s.record i).key)))) ∧
    ((s.record i).st ≠ .writing → (s.record i).st ≠ .indexing → s.giveUp i = s) ∧
    (∀ j, s.leaveWriteQueue j = { s with link := { s.link with queue := s.link.queue.filter (· != j) } }))

/-- CLEARED ends the CLEAR exchange in CLEARING and counts STRAY in READY and FAILED; the expiry of the clear timer fails
the link. -/
def Obligations.ClearExchangeEnds : Prop :=
  ∀ s : State,
    (s.running = true → s.link.st = .clearing → s.link.latch = false →
      exec .cleared s = .next (State.issue { s with
        link := { s.link with st := .ready, clearTimer := none, latch := !s.storeHalt } })) ∧
    (s.running = true → s.link.st ≠ .clearing →
      exec .cleared s =
        .next { s with link := { s.link with stray := min 65535 (s.link.stray + 1) } }) ∧
    (s.link.st = .clearing → s.link.clearTimer = some 0 →
      exec .clearTimerExpiry s =
        .next { s with link := { s.link with st := .failed, clearTimer := none, failedLatch := true } })

/-! ### The cue line -/

/-- A received message is accepted when it is not this station's own and its target is ALL, this station, or a feed held by a
channel that is not IDLE; a disabled interface accepts nothing. -/
def Obligations.ReceiveFilter : Prop :=
  ∀ (s : State) (m : Heard), s.accepts m = true ↔
    s.cue.enabled = true ∧ s.status.station ≠ some m.sender ∧
      (m.target = .all ∨ (∃ n, s.status.station = some n ∧ m.target = .station (n.setWidth 16)) ∨
        ∃ f c, m.target = .feed f ∧ (s.chan c).take.st ≠ .idle ∧ (s.chan c).port.feedId = some f)

/-- A message joins the transmit queue: below 16 entries at its place; at 16, a class 0 message displaces the newest notice
or else the newest answer that is not on the line, and any other is dropped; every drop sets TX DROPPED. A dropped entry is
the newest of its kind by age. Every block queues its messages so: a notice where the mask enables its cause, with the channel
or FFH for the engine and the count of the most recent tick, and a REPLY to the sender of its command. The class, the kind,
the target and the length of each message are those of the tables of R166 and section 11.3. -/
def Obligations.MessageJoinsTheQueue : Prop :=
  (∀ (l : CueLine) (swap : Bool) (m : Message),
    let e : TxEntry := { msg := m, cls := m.cls swap, age := l.nextAge }
    (l.queue.length < 16 →
      l.join swap m = { l with queue := placeEntry e l.queue, nextAge := l.nextAge + 1 }) ∧
    (16 ≤ l.queue.length → m.precedence ≠ .twin → l.join swap m = { l with droppedLatch := true }) ∧
    (16 ≤ l.queue.length → m.precedence = .twin →
      (∀ x, displaced l.onLine l.queue = some x →
        l.join swap m = { l with
          queue := placeEntry e (dropAge x.age l.queue), nextAge := l.nextAge + 1, droppedLatch := true }) ∧
      (displaced l.onLine l.queue = none → l.join swap m = { l with droppedLatch := true })) ∧
    (∀ q : List TxEntry, q.Pairwise (fun a b => a.cls ≤ b.cls) →
      placeEntry e q = q.filter (fun x => decide (x.cls ≤ e.cls)) ++ e :: q.filter fun x => decide (e.cls < x.cls)) ∧
    (∀ q : List TxEntry, q.Pairwise (fun a b => a.msg.precedence = b.msg.precedence → a.age < b.age) →
      let candidate (p : Precedence) (x : TxEntry) : Prop :=
        x ∈ q ∧ x.msg.precedence = p ∧ l.onLine ≠ some x.age
      (displaced l.onLine q = none ↔ ∀ x, ¬ candidate .notice x ∧ ¬ candidate .answer x) ∧
      ∀ x, displaced l.onLine q = some x →
        (candidate .notice x ∧ ∀ y, candidate .notice y → y.age ≤ x.age) ∨
          ((∀ y, ¬ candidate .notice y) ∧ candidate .answer x ∧ ∀ y, candidate .answer y → y.age ≤ x.age))) ∧
(∀ s : State,
    (∀ m, s.transmit m = { s with cue := s.cue.join s.status.cfg.classSwap m }) ∧
    (∀ cause reason channel count,
      (s.status.cfg.mask.getLsbD (cause.code - 1) = true →
        s.notice cause reason channel count = s.transmit (.notice cause reason channel count)) ∧
      (s.status.cfg.mask.getLsbD (cause.code - 1) = false → s.notice cause reason channel count = s)) ∧
    (∀ cause reason c, s.channelNotice cause reason c = s.notice cause reason (BitVec.ofNat 8 c.val) s.ref.count) ∧
    (∀ cause reason, s.engineNotice cause reason = s.notice cause reason 0xFF#8 s.ref.count) ∧
    (∀ dest code adjusted channel kind,
      s.reply dest code adjusted channel kind = s.transmit (.reply dest code adjusted channel kind))) ∧
([Cause.start, .takeStart, .cueEmpty, .takeEnd, .feedLost, .feedBack, .feedFault, .overrun, .evicted, .storeHalted,
    .refLost, .refBack].map Cause.code = [1, 2, 3, 4, 5, 6, 7, 8, 9, 10, 11, 12]) ∧
(∀ m : Message,
    (m.precedence = .twin → m.cls false = 0 ∧ m.cls true = 0) ∧
    (m.precedence = .answer → m.cls false = 1 ∧ m.cls true = 2) ∧
    (m.precedence = .notice → m.cls false = 2 ∧ m.cls true = 1)) ∧
(∀ (k : Key) (placements damage : Nat) (short torn : Bool),
    let of (m : Message) := (m.precedence, m.kind, m.target, m.payload.length)
    of (.report k placements damage short torn) = (.twin, 0x30#8, .feed k.feed, 17) ∧
      of (.stored k) = (.twin, 0x31#8, .feed k.feed, 12) ∧ of (.unstored k) = (.twin, 0x32#8, .feed k.feed, 12) ∧
      of (.takeover k) = (.twin, 0x33#8, .feed k.feed, 12)) ∧
(∀ dest : Station,
    let of (m : Message) := (m.precedence, m.kind, m.target, m.payload.length)
    let asker : Target := .station (dest.setWidth 16)
    (∀ code adjusted channel kind,
      of (.reply dest code adjusted channel kind) = (.answer, 0x20#8, asker, 4)) ∧
    (∀ v, of (.engineStatus dest v) = (.answer, 0x21#8, asker, 19)) ∧
    (∀ v, of (.engineCounters dest v) = (.answer, 0x21#8, asker, 19)) ∧
    (∀ v, of (.channelStatus dest v) = (.answer, 0x21#8, asker, 26)) ∧
    ∀ cause reason channel count,
      of (.notice cause reason channel count) = (.notice, 0x22#8, .all, 7))

/-- At idle the head of the queue goes on the line; lost arbitration keeps the message queued; a clash removes it and counts
CLASH; a message sent leaves the queue, and its end field counts toward idle. A stuck line sets LINE STUCK and the
interface waits for idle; what was being sent or received is settled then, and while it waits, at idle too, nothing is
counted (the model's reading and choice, log 16). The count toward
idle is at 0 after a clash; bit times read recessive up to and at it are counted with the gap that follows (the model's
reading, log 15, log 30). -/
def Obligations.SendingAndStuckLine : Prop :=
  (∀ s : State,
    (∀ n gap e rest, s.cue.enabled = true → s.cue.activity = .waiting n → 11 ≤ n + gap →
      s.cue.queue = e :: rest →
      exec (.lineIdleSend gap) s =
        .next { s with cue := { s.cue with activity := .sending, onLine := some e.age } }) ∧
    (s.cue.activity = .sending →
      exec .lostArbitration s = .next { s with cue := { s.cue with activity := .receiving, onLine := none } }) ∧
    (∀ a, s.cue.activity = .sending → s.cue.onLine = some a →
      exec .clash s = .next { s with cue := { s.cue with
        activity := .waiting 0, onLine := none, clash := min 65535 (s.cue.clash + 1)
        queue := s.cue.queue.filter fun e => e.age != a } }) ∧
    (∀ a e, s.cue.activity = .sending → s.cue.onLine = some a →
      s.cue.queue.find? (fun x => x.age == a) = some e →
      exec .messageSent s = .next { s with
        lineOut := s.lineOut ++
          [frameBits (frameFields e.cls s.stationNumber e.msg.kind e.msg.target e.msg.payload)]
        cue := { s.cue with
          activity := .waiting 8, onLine := none, queue := s.cue.queue.filter fun x => x.age != a } })) ∧
(∀ s : State, s.cue.enabled = true →
    (∀ n a, s.cue.activity = .waiting n → exec (.lineStuck a) s =
      .next { s with cue := { s.cue with stuckLatch := true, activity := .waiting 0, onLine := none } }) ∧
    (∀ a, s.cue.activity = .receiving ∨ (s.cue.activity = .sending ∧ a = true) → exec (.lineStuck a) s =
      .next { s with cue := { s.cue with
        stuckLatch := true, activity := .waiting 0, onLine := none, rxBad := min 65535 (s.cue.rxBad + 1) } }) ∧
    (∀ k, s.cue.activity = .sending → s.cue.onLine = some k → exec (.lineStuck false) s =
      .next { s with cue := { s.cue with
        stuckLatch := true, activity := .waiting 0, onLine := none, clash := min 65535 (s.cue.clash + 1)
        queue := s.cue.queue.filter fun e => e.age != k } }))

/-- A frame that begins at idle, or that goes on after lost arbitration: one that fails a test of R164 counts RX BAD and
reaches no block; one that passes is taken whole by the block that owns its kind. A frame under way before idle is not
received, and its recessive run alone counts toward idle. After a frame that is heard the recessive bits since the last
dominant level count, but none from before an end field that it has gone through to, and it makes no difference whether
recessive bits are given with a frame that has reached its end or come after it (the model's choice, log 15). A frame
heard at idle while a message waits is the model's choice (log 34). A message taken has the effect of the row of its kind;
a REPLY, a STATUS or a NOTICE heard changes nothing, and any other kind is unknown. That the row itself leaves the line's
activity as it is, is the model's choice (log 17). -/
def Obligations.FrameReceived : Prop :=
  (∀ (s : State) (gap : Nat) (bits : List Bool), s.cue.enabled = true →
    (s.cue.activity = .receiving ∨ ∃ n, s.cue.activity = .waiting n ∧ 11 ≤ n + gap) →
      (receiveFrame (false :: bits) = none →
        exec (.cueLineFrame gap (false :: bits)) s = .next { s with cue := { s.cue with
          activity := .waiting (min 11 (countAfter (false :: bits))), onLine := none,
          rxBad := min 65535 (s.cue.rxBad + 1) } }) ∧
      (∀ f, receiveFrame (false :: bits) = some f →
        exec (.cueLineFrame gap (false :: bits)) s =
          .next (State.takeMessage f.kind f.heard
            { s with cue := { s.cue with
              activity := .waiting (min 11 (countAfter (false :: bits))), onLine := none } }))) ∧
(∀ (s : State) (n gap : Nat) (bits : List Bool), s.cue.enabled = true → s.cue.activity = .waiting n → n + gap < 11 →
    exec (.cueLineFrame gap (false :: bits)) s = .next { s with cue := { s.cue with
      activity := .waiting (min 11 (trailingRecessive (false :: bits))), onLine := none } }) ∧
(∀ bits : List Bool,
    (frameParts (false :: bits) = none → countAfter (false :: bits) = trailingRecessive (false :: bits)) ∧
    (∀ data tail, frameParts (false :: bits) = some (data, tail ++ List.replicate 20 true) →
      countAfter (false :: bits) = trailingRecessive tail) ∧
    (frameReached (false :: bits) = true → ∀ n,
      countAfter (false :: bits ++ List.replicate n true) = countAfter (false :: bits) + n)) ∧
(∀ (s : State) (m : Heard),
    exec (.arm m) s = .next (s.takeMessage 0x10#8 m) ∧ exec (.disarm m) s = .next (s.takeMessage 0x11#8 m) ∧
      exec (.cue m) s = .next (s.takeMessage 0x12#8 m) ∧ exec (.stop m) s = .next (s.takeMessage 0x13#8 m) ∧
      exec (.cut m) s = .next (s.takeMessage 0x14#8 m) ∧ exec (.resetChannel m) s = .next (s.takeMessage 0x15#8 m) ∧
      exec (.preset m) s = .next (s.takeMessage 0x16#8 m) ∧
      exec (.resumeStore m) s = .next (s.takeMessage 0x17#8 m) ∧
      exec (.resetStore m) s = .next (s.takeMessage 0x18#8 m) ∧ exec (.query m) s = .next (s.takeMessage 0x19#8 m) ∧
      s.takeMessage 0x20#8 m = s ∧ s.takeMessage 0x21#8 m = s ∧ s.takeMessage 0x22#8 m = s ∧
      exec (.reportHeard m) s = .next (s.takeMessage 0x30#8 m) ∧
      exec (.storedHeard { heard := m, together := false }) s = .next (s.takeMessage 0x31#8 m) ∧
      exec (.unstoredHeard m) s = .next (s.takeMessage 0x32#8 m) ∧
      exec (.takeoverHeard m) s = .next (s.takeMessage 0x33#8 m) ∧
      ∀ kind, exec (.unknownKind kind m) s = .next (s.takeMessage kind m))

/-- Every frame the engine can send is received whole, with its kind, sender, target and payload: no bit of a frame is
dropped or doubled by stuffing, and its check matches. Its end field counts 8 toward idle; that recessive bits which end its
check do not count with them is the model's choice (log 15). -/
def Obligations.FramesRoundTrip : Prop :=
  ∀ (cls : Nat) (station : Station) (kind : Byte) (target : Target) (payload : List Byte),
    cls < 8 → target ≠ .other → payload.length ≤ 32 →
    receiveFrame (frameBits (frameFields cls station kind target payload)) =
      some { kind := kind, heard := { sender := station, target := target, payload := payload } } ∧
    countAfter (frameBits (frameFields cls station kind target payload)) = 8

/-! ### Commands and STATUS -/

/-- A message the filter does not accept, and a command in an addressing marked "ignored", change nothing. A short command
draws BAD FIELD and an unknown kind draws UNKNOWN when addressed to this station, and neither has any other effect. A twin
message that is not addressed to a feed, or is shorter than its kind, changes nothing. -/
def Obligations.MessagesThatDoNotAct : Prop :=
  (∀ (s : State) (m : Heard), s.accepts m = true →
    let answer (kind : Byte) := State.answered m .badField false 0xFF#8 kind s
    (m.payload.length < 23 → exec (.arm m) s = .next (answer 0x10#8)) ∧
    (m.payload.length < 8 → exec (.cue m) s = .next (answer 0x12#8)) ∧
    (m.payload.length < 4 → exec (.preset m) s = .next (answer 0x16#8)) ∧
    (m.payload.length < 2 → exec (.query m) s = .next (answer 0x19#8)) ∧
    (m.payload = [] →
      exec (.disarm m) s = .next (answer 0x11#8) ∧ exec (.stop m) s = .next (answer 0x13#8) ∧
        exec (.cut m) s = .next (answer 0x14#8) ∧ exec (.resetChannel m) s = .next (answer 0x15#8))) ∧
(∀ (s : State) (m : Heard) (kind : Byte), s.accepts m = false →
    s.takeMessage kind m = s ∧ exec (.arm m) s = .next s ∧ exec (.disarm m) s = .next s ∧
      exec (.cue m) s = .next s ∧ exec (.stop m) s = .next s ∧ exec (.cut m) s = .next s ∧
      exec (.resetChannel m) s = .next s ∧ exec (.preset m) s = .next s ∧ exec (.resumeStore m) s = .next s ∧
      exec (.resetStore m) s = .next s ∧ exec (.query m) s = .next s ∧ exec (.reportHeard m) s = .next s ∧
      exec (.storedHeard { heard := m, together := false }) s = .next s ∧ exec (.unstoredHeard m) s = .next s ∧
      exec (.takeoverHeard m) s = .next s ∧ exec (.unknownKind kind m) s = .next s) ∧
(∀ (s : State) (m : Heard),
    ((∀ f, m.target ≠ .feed f) ∨ m.payload.length < 17 → exec (.reportHeard m) s = .next s) ∧
    ((∀ f, m.target ≠ .feed f) ∨ m.payload.length < 12 →
      exec (.storedHeard { heard := m, together := false }) s = .next s ∧ exec (.unstoredHeard m) s = .next s ∧
        exec (.takeoverHeard m) s = .next s)) ∧
(∀ (s : State) (m : Heard),
    ((∀ v, m.target ≠ .station v) →
      exec (.arm m) s = .next s ∧ exec (.disarm m) s = .next s ∧ exec (.resetChannel m) s = .next s ∧
        exec (.query m) s = .next s) ∧
    (∀ f, m.target = .feed f → exec (.resumeStore m) s = .next s ∧ exec (.resetStore m) s = .next s)) ∧
(∀ (s : State) (m : Heard) (kind : Byte), s.accepts m = true → knownKind kind = false →
    exec (.unknownKind kind m) s = .next (State.answered m .unknown false 0xFF#8 kind s))

/-- PRESET makes its value the pending preset, in every reference state, and is answered DONE when addressed to this
station. -/
def Obligations.PresetTaken : Prop :=
  ∀ (s : State) (m : Heard), s.accepts m = true → 4 ≤ m.payload.length →
    exec (.preset m) s = .next (State.answered m .done false 0xFF#8 0x16#8
      { s with ref := { s.ref with preset := some (BitVec.ofNat 32 (field m.payload 0 4)) } })

/-- QUERY takes its snapshot before it clears: an engine QUERY clears the six latches, the clear flag sets the counters of
the part read to 0, and STATUS is queued to the sender; a selector that names no part draws BAD PORT. The snapshots hold the
values of R180 and R181, each as it stands; an IDLE channel reports no feed. -/
def Obligations.QueryAnswered : Prop :=
  (∀ (s : State) (m : Heard) (v : BitVec 16), s.accepts m = true → m.target = .station v → 2 ≤ m.payload.length →
    (field m.payload 0 1 = 0x80 →
      let cleared : State := { s with
        ref := { s.ref with lostLatch := false }
        link := { s.link with haltedLatch := false, failedLatch := false }
        cue := { s.cue with stuckLatch := false, droppedLatch := false }
        status := { s.status with defaultedLatch := false } }
      exec (.query m) s = .next (State.transmit (.engineCounters m.sender s.counterSnapshot)
        (State.transmit (.engineStatus m.sender s.engineSnapshot)
          (if field m.payload 1 1 = 0 then cleared
           else { cleared with
             link := { cleared.link with stored := 0, fault := 0, stray := 0 }
             cue := { cleared.cue with clash := 0, rxBad := 0 }
             arb := { lateReport := 0, unmatched := 0, takeovers := 0 }
             pool := { cleared.pool with evictions := 0 } })))) ∧
    (∀ c, parsePort m.payload = some c →
      exec (.query m) s = .next (State.transmit (.channelStatus m.sender (s.channelSnapshot c))
        (if field m.payload 1 1 = 0 then s
         else s.setChan c
           { port := { (s.chan c).port with accepted := 0, corrupt := 0, foreign := 0 }
             sync := { (s.chan c).sync with late := 0, duplicate := 0, discontinuities := 0 }
             take := { (s.chan c).take with overruns := 0 }
             sel := { (s.chan c).sel with skips := 0 } }))) ∧
    (field m.payload 0 1 ≠ 0x80 → parsePort m.payload = none →
      exec (.query m) s = .next (s.reply m.sender .badPort false 0xFF#8 0x19#8))) ∧
(∀ s : State,
    s.engineSnapshot =
      { station := s.status.station, source := s.status.source, refLost := s.ref.lostLatch,
        storeHalted := s.link.haltedLatch, configDefaulted := s.status.defaultedLatch,
        txDropped := s.cue.droppedLatch, lineStuck := s.cue.stuckLatch, linkFailed := s.link.failedLatch,
        refState := s.ref.st, cur := s.ref.cur, prev := s.ref.prev, count := s.ref.count, latch := s.link.latch,
        freePages := s.pool.free.length
        freeRecords := ((List.finRange 64).filter fun i => (s.record i).st == .free).length } ∧
    s.counterSnapshot =
      { stored := s.link.stored, fault := s.link.fault, stray := s.link.stray, clash := s.cue.clash,
        rxBad := s.cue.rxBad, lateReport := s.arb.lateReport, unmatched := s.arb.unmatched,
        takeovers := s.arb.takeovers, evictions := s.pool.evictions } ∧
    ∀ c, let x := s.chan c
      s.channelSnapshot c =
        { channel := c, st := x.take.st, feedId := if x.take.st = .idle then none else x.port.feedId,
          bufferFull := x.take.buffer.isSome, cueEmpty := x.take.cueEmpty, feed := x.port.feed,
          debPresence := x.port.debPresence, faultMark := x.port.faultMark, consecBad := x.port.consecBad,
          sync := x.sync.st, accepted := x.port.accepted, corrupt := x.port.corrupt, foreign := x.port.foreign,
          late := x.sync.late, duplicate := x.sync.duplicate, discontinuities := x.sync.discontinuities,
          skips := x.sel.skips, overruns := x.take.overruns })

/-! ### Invariants -/

/-- The reset state satisfies every invariant below. That staging memory lists nothing then is the model's own representation
(log 9), and the selectors' parameters before start-up has ended are the model's choice (log 12). -/
def Obligations.InvariantsHoldAtReset : Prop :=
  MemoryCanonical State.reset ∧ DamageKept State.reset ∧ TransmitQueueOrdered State.reset ∧
    JobQueueBounded State.reset ∧ PortsFollowChannels State.reset ∧ SelectorsInRange State.reset ∧
    PoolInOrder State.reset

/-- Every step keeps the canonical form of staging memory, which is the model's own representation of it (addresses rising,
no byte listed that is 0: log 9). -/
def Obligations.MemoryStaysCanonical : Prop :=
  KeptByEveryStep MemoryCanonical

/-- Every step keeps every record's damage score equal to its formula. -/
def Obligations.DamageStaysItsFormula : Prop :=
  KeptByEveryStep DamageKept

/-- Every step keeps the transmit queue at most 16 long, in class order and age order. -/
def Obligations.TransmitQueueStaysOrdered : Prop :=
  KeptByEveryStep TransmitQueueOrdered

/-- Every step keeps the job queue at most 12 long, every port OPEN exactly while its channel is not IDLE, and every selector's
fullness within its bucket and its quantiser bounds in order. -/
def Obligations.PortsAndJobsStayInStep : Prop :=
  KeptByEveryStep JobQueueBounded ∧ KeptByEveryStep PortsFollowChannels ∧ KeptByEveryStep SelectorsInRange

/-- Every step keeps each of the 16,384 pages on exactly one list, every FREE record in its cleared form, and what these rest
on: a record's pending jobs are its jobs in the queue and only an OPEN or CLOSING record has any, the write queue holds
records that are QUEUED, WRITING or INDEXING, and an OUTSTANDING tag stands for one issued place of a record being
written. -/
def Obligations.PagesStayOnOneList : Prop :=
  KeptByEveryStep PoolInOrder

end
end

