-- ==== Sys2Proof/Laws/State.lean ====
section
/-! SUPPORT. One lemma per field per update: what each named update of the state leaves as it was, and what it changes. -/

namespace Sys2Proof.Machine

/-- Reading a vector after a write. -/
theorem vector_get_set {α : Type} {n : Nat} (v : Vector α n) (i j : Fin n) (x : α) :
    (v.set i x).get j = if j = i then x else v.get j := by
  have h1 : (v.set i x).get j = (v.set i x)[j.val]'j.isLt := rfl
  have h2 : v.get j = v[j.val]'j.isLt := rfl
  rw [h1, h2, Vector.getElem_set]
  by_cases h : j = i
  · subst h; simp
  · have h' : i.val ≠ j.val := fun e => h (Fin.ext e.symm)
    simp [h, h']

variable (s : State)

/-! ### `State.setChan` -/

@[simp] theorem State.setChan_ref (c : Port) (x : Channel) : (s.setChan c x).ref = s.ref := rfl
@[simp] theorem State.setChan_pool (c : Port) (x : Channel) : (s.setChan c x).pool = s.pool := rfl
@[simp] theorem State.setChan_mem (c : Port) (x : Channel) : (s.setChan c x).mem = s.mem := rfl
@[simp] theorem State.setChan_browse (c : Port) (x : Channel) : (s.setChan c x).browse = s.browse := rfl
@[simp] theorem State.setChan_arb (c : Port) (x : Channel) : (s.setChan c x).arb = s.arb := rfl
@[simp] theorem State.setChan_link (c : Port) (x : Channel) : (s.setChan c x).link = s.link := rfl
@[simp] theorem State.setChan_cue (c : Port) (x : Channel) : (s.setChan c x).cue = s.cue := rfl
@[simp] theorem State.setChan_status (c : Port) (x : Channel) : (s.setChan c x).status = s.status := rfl
@[simp] theorem State.setChan_storeHalt (c : Port) (x : Channel) : (s.setChan c x).storeHalt = s.storeHalt := rfl
@[simp] theorem State.setChan_storeOut (c : Port) (x : Channel) : (s.setChan c x).storeOut = s.storeOut := rfl
@[simp] theorem State.setChan_lineOut (c : Port) (x : Channel) : (s.setChan c x).lineOut = s.lineOut := rfl
@[simp] theorem State.setChan_pending (c : Port) (x : Channel) : (s.setChan c x).pending = s.pending := rfl
@[simp] theorem State.setChan_record (c : Port) (x : Channel) (j : RecIx) : (s.setChan c x).record j = s.record j := by simp [State.record]
@[simp] theorem State.setChan_tag (c : Port) (x : Channel) (g : TagIx) : (s.setChan c x).tag g = s.tag g := by simp [State.tag]

/-! ### `State.onPort` -/

@[simp] theorem State.onPort_ref (c : Port) (f : FeedPort → FeedPort) : (s.onPort c f).ref = s.ref := rfl
@[simp] theorem State.onPort_pool (c : Port) (f : FeedPort → FeedPort) : (s.onPort c f).pool = s.pool := rfl
@[simp] theorem State.onPort_mem (c : Port) (f : FeedPort → FeedPort) : (s.onPort c f).mem = s.mem := rfl
@[simp] theorem State.onPort_browse (c : Port) (f : FeedPort → FeedPort) : (s.onPort c f).browse = s.browse := rfl
@[simp] theorem State.onPort_arb (c : Port) (f : FeedPort → FeedPort) : (s.onPort c f).arb = s.arb := rfl
@[simp] theorem State.onPort_link (c : Port) (f : FeedPort → FeedPort) : (s.onPort c f).link = s.link := rfl
@[simp] theorem State.onPort_cue (c : Port) (f : FeedPort → FeedPort) : (s.onPort c f).cue = s.cue := rfl
@[simp] theorem State.onPort_status (c : Port) (f : FeedPort → FeedPort) : (s.onPort c f).status = s.status := rfl
@[simp] theorem State.onPort_storeHalt (c : Port) (f : FeedPort → FeedPort) : (s.onPort c f).storeHalt = s.storeHalt := rfl
@[simp] theorem State.onPort_storeOut (c : Port) (f : FeedPort → FeedPort) : (s.onPort c f).storeOut = s.storeOut := rfl
@[simp] theorem State.onPort_lineOut (c : Port) (f : FeedPort → FeedPort) : (s.onPort c f).lineOut = s.lineOut := rfl
@[simp] theorem State.onPort_pending (c : Port) (f : FeedPort → FeedPort) : (s.onPort c f).pending = s.pending := rfl
@[simp] theorem State.onPort_record (c : Port) (f : FeedPort → FeedPort) (j : RecIx) : (s.onPort c f).record j = s.record j := by simp [State.record]
@[simp] theorem State.onPort_tag (c : Port) (f : FeedPort → FeedPort) (g : TagIx) : (s.onPort c f).tag g = s.tag g := by simp [State.tag]

/-! ### `State.onSync` -/

@[simp] theorem State.onSync_ref (c : Port) (f : Synchroniser → Synchroniser) : (s.onSync c f).ref = s.ref := rfl
@[simp] theorem State.onSync_pool (c : Port) (f : Synchroniser → Synchroniser) : (s.onSync c f).pool = s.pool := rfl
@[simp] theorem State.onSync_mem (c : Port) (f : Synchroniser → Synchroniser) : (s.onSync c f).mem = s.mem := rfl
@[simp] theorem State.onSync_browse (c : Port) (f : Synchroniser → Synchroniser) : (s.onSync c f).browse = s.browse := rfl
@[simp] theorem State.onSync_arb (c : Port) (f : Synchroniser → Synchroniser) : (s.onSync c f).arb = s.arb := rfl
@[simp] theorem State.onSync_link (c : Port) (f : Synchroniser → Synchroniser) : (s.onSync c f).link = s.link := rfl
@[simp] theorem State.onSync_cue (c : Port) (f : Synchroniser → Synchroniser) : (s.onSync c f).cue = s.cue := rfl
@[simp] theorem State.onSync_status (c : Port) (f : Synchroniser → Synchroniser) : (s.onSync c f).status = s.status := rfl
@[simp] theorem State.onSync_storeHalt (c : Port) (f : Synchroniser → Synchroniser) : (s.onSync c f).storeHalt = s.storeHalt := rfl
@[simp] theorem State.onSync_storeOut (c : Port) (f : Synchroniser → Synchroniser) : (s.onSync c f).storeOut = s.storeOut := rfl
@[simp] theorem State.onSync_lineOut (c : Port) (f : Synchroniser → Synchroniser) : (s.onSync c f).lineOut = s.lineOut := rfl
@[simp] theorem State.onSync_pending (c : Port) (f : Synchroniser → Synchroniser) : (s.onSync c f).pending = s.pending := rfl
@[simp] theorem State.onSync_record (c : Port) (f : Synchroniser → Synchroniser) (j : RecIx) : (s.onSync c f).record j = s.record j := by simp [State.record]
@[simp] theorem State.onSync_tag (c : Port) (f : Synchroniser → Synchroniser) (g : TagIx) : (s.onSync c f).tag g = s.tag g := by simp [State.tag]

/-! ### `State.onTake` -/

@[simp] theorem State.onTake_ref (c : Port) (f : TakeController → TakeController) : (s.onTake c f).ref = s.ref := rfl
@[simp] theorem State.onTake_pool (c : Port) (f : TakeController → TakeController) : (s.onTake c f).pool = s.pool := rfl
@[simp] theorem State.onTake_mem (c : Port) (f : TakeController → TakeController) : (s.onTake c f).mem = s.mem := rfl
@[simp] theorem State.onTake_browse (c : Port) (f : TakeController → TakeController) : (s.onTake c f).browse = s.browse := rfl
@[simp] theorem State.onTake_arb (c : Port) (f : TakeController → TakeController) : (s.onTake c f).arb = s.arb := rfl
@[simp] theorem State.onTake_link (c : Port) (f : TakeController → TakeController) : (s.onTake c f).link = s.link := rfl
@[simp] theorem State.onTake_cue (c : Port) (f : TakeController → TakeController) : (s.onTake c f).cue = s.cue := rfl
@[simp] theorem State.onTake_status (c : Port) (f : TakeController → TakeController) : (s.onTake c f).status = s.status := rfl
@[simp] theorem State.onTake_storeHalt (c : Port) (f : TakeController → TakeController) : (s.onTake c f).storeHalt = s.storeHalt := rfl
@[simp] theorem State.onTake_storeOut (c : Port) (f : TakeController → TakeController) : (s.onTake c f).storeOut = s.storeOut := rfl
@[simp] theorem State.onTake_lineOut (c : Port) (f : TakeController → TakeController) : (s.onTake c f).lineOut = s.lineOut := rfl
@[simp] theorem State.onTake_pending (c : Port) (f : TakeController → TakeController) : (s.onTake c f).pending = s.pending := rfl
@[simp] theorem State.onTake_record (c : Port) (f : TakeController → TakeController) (j : RecIx) : (s.onTake c f).record j = s.record j := by simp [State.record]
@[simp] theorem State.onTake_tag (c : Port) (f : TakeController → TakeController) (g : TagIx) : (s.onTake c f).tag g = s.tag g := by simp [State.tag]

/-! ### `State.onSel` -/

@[simp] theorem State.onSel_ref (c : Port) (f : Selector → Selector) : (s.onSel c f).ref = s.ref := rfl
@[simp] theorem State.onSel_pool (c : Port) (f : Selector → Selector) : (s.onSel c f).pool = s.pool := rfl
@[simp] theorem State.onSel_mem (c : Port) (f : Selector → Selector) : (s.onSel c f).mem = s.mem := rfl
@[simp] theorem State.onSel_browse (c : Port) (f : Selector → Selector) : (s.onSel c f).browse = s.browse := rfl
@[simp] theorem State.onSel_arb (c : Port) (f : Selector → Selector) : (s.onSel c f).arb = s.arb := rfl
@[simp] theorem State.onSel_link (c : Port) (f : Selector → Selector) : (s.onSel c f).link = s.link := rfl
@[simp] theorem State.onSel_cue (c : Port) (f : Selector → Selector) : (s.onSel c f).cue = s.cue := rfl
@[simp] theorem State.onSel_status (c : Port) (f : Selector → Selector) : (s.onSel c f).status = s.status := rfl
@[simp] theorem State.onSel_storeHalt (c : Port) (f : Selector → Selector) : (s.onSel c f).storeHalt = s.storeHalt := rfl
@[simp] theorem State.onSel_storeOut (c : Port) (f : Selector → Selector) : (s.onSel c f).storeOut = s.storeOut := rfl
@[simp] theorem State.onSel_lineOut (c : Port) (f : Selector → Selector) : (s.onSel c f).lineOut = s.lineOut := rfl
@[simp] theorem State.onSel_pending (c : Port) (f : Selector → Selector) : (s.onSel c f).pending = s.pending := rfl
@[simp] theorem State.onSel_record (c : Port) (f : Selector → Selector) (j : RecIx) : (s.onSel c f).record j = s.record j := by simp [State.record]
@[simp] theorem State.onSel_tag (c : Port) (f : Selector → Selector) (g : TagIx) : (s.onSel c f).tag g = s.tag g := by simp [State.tag]

/-! ### `State.onRec` -/

@[simp] theorem State.onRec_ref (i : RecIx) (f : Record → Record) : (s.onRec i f).ref = s.ref := rfl
@[simp] theorem State.onRec_chans (i : RecIx) (f : Record → Record) : (s.onRec i f).chans = s.chans := rfl
@[simp] theorem State.onRec_mem (i : RecIx) (f : Record → Record) : (s.onRec i f).mem = s.mem := rfl
@[simp] theorem State.onRec_browse (i : RecIx) (f : Record → Record) : (s.onRec i f).browse = s.browse := rfl
@[simp] theorem State.onRec_arb (i : RecIx) (f : Record → Record) : (s.onRec i f).arb = s.arb := rfl
@[simp] theorem State.onRec_link (i : RecIx) (f : Record → Record) : (s.onRec i f).link = s.link := rfl
@[simp] theorem State.onRec_cue (i : RecIx) (f : Record → Record) : (s.onRec i f).cue = s.cue := rfl
@[simp] theorem State.onRec_status (i : RecIx) (f : Record → Record) : (s.onRec i f).status = s.status := rfl
@[simp] theorem State.onRec_storeHalt (i : RecIx) (f : Record → Record) : (s.onRec i f).storeHalt = s.storeHalt := rfl
@[simp] theorem State.onRec_storeOut (i : RecIx) (f : Record → Record) : (s.onRec i f).storeOut = s.storeOut := rfl
@[simp] theorem State.onRec_lineOut (i : RecIx) (f : Record → Record) : (s.onRec i f).lineOut = s.lineOut := rfl
@[simp] theorem State.onRec_pending (i : RecIx) (f : Record → Record) : (s.onRec i f).pending = s.pending := rfl
@[simp] theorem State.onRec_chan (i : RecIx) (f : Record → Record) (e : Port) : (s.onRec i f).chan e = s.chan e := by simp [State.chan]
@[simp] theorem State.onRec_tag (i : RecIx) (f : Record → Record) (g : TagIx) : (s.onRec i f).tag g = s.tag g := by simp [State.tag]

/-! ### `State.setTag` -/

@[simp] theorem State.setTag_ref (t : TagIx) (x : TagState) : (s.setTag t x).ref = s.ref := rfl
@[simp] theorem State.setTag_chans (t : TagIx) (x : TagState) : (s.setTag t x).chans = s.chans := rfl
@[simp] theorem State.setTag_pool (t : TagIx) (x : TagState) : (s.setTag t x).pool = s.pool := rfl
@[simp] theorem State.setTag_mem (t : TagIx) (x : TagState) : (s.setTag t x).mem = s.mem := rfl
@[simp] theorem State.setTag_browse (t : TagIx) (x : TagState) : (s.setTag t x).browse = s.browse := rfl
@[simp] theorem State.setTag_arb (t : TagIx) (x : TagState) : (s.setTag t x).arb = s.arb := rfl
@[simp] theorem State.setTag_cue (t : TagIx) (x : TagState) : (s.setTag t x).cue = s.cue := rfl
@[simp] theorem State.setTag_status (t : TagIx) (x : TagState) : (s.setTag t x).status = s.status := rfl
@[simp] theorem State.setTag_storeHalt (t : TagIx) (x : TagState) : (s.setTag t x).storeHalt = s.storeHalt := rfl
@[simp] theorem State.setTag_storeOut (t : TagIx) (x : TagState) : (s.setTag t x).storeOut = s.storeOut := rfl
@[simp] theorem State.setTag_lineOut (t : TagIx) (x : TagState) : (s.setTag t x).lineOut = s.lineOut := rfl
@[simp] theorem State.setTag_pending (t : TagIx) (x : TagState) : (s.setTag t x).pending = s.pending := rfl
@[simp] theorem State.setTag_chan (t : TagIx) (x : TagState) (e : Port) : (s.setTag t x).chan e = s.chan e := by simp [State.chan]
@[simp] theorem State.setTag_record (t : TagIx) (x : TagState) (j : RecIx) : (s.setTag t x).record j = s.record j := by simp [State.record]

/-! ### `State.transmit` -/

@[simp] theorem State.transmit_ref (m : Message) : (s.transmit m).ref = s.ref := rfl
@[simp] theorem State.transmit_chans (m : Message) : (s.transmit m).chans = s.chans := rfl
@[simp] theorem State.transmit_pool (m : Message) : (s.transmit m).pool = s.pool := rfl
@[simp] theorem State.transmit_mem (m : Message) : (s.transmit m).mem = s.mem := rfl
@[simp] theorem State.transmit_browse (m : Message) : (s.transmit m).browse = s.browse := rfl
@[simp] theorem State.transmit_arb (m : Message) : (s.transmit m).arb = s.arb := rfl
@[simp] theorem State.transmit_link (m : Message) : (s.transmit m).link = s.link := rfl
@[simp] theorem State.transmit_status (m : Message) : (s.transmit m).status = s.status := rfl
@[simp] theorem State.transmit_storeHalt (m : Message) : (s.transmit m).storeHalt = s.storeHalt := rfl
@[simp] theorem State.transmit_storeOut (m : Message) : (s.transmit m).storeOut = s.storeOut := rfl
@[simp] theorem State.transmit_lineOut (m : Message) : (s.transmit m).lineOut = s.lineOut := rfl
@[simp] theorem State.transmit_pending (m : Message) : (s.transmit m).pending = s.pending := rfl
@[simp] theorem State.transmit_chan (m : Message) (e : Port) : (s.transmit m).chan e = s.chan e := by simp [State.chan]
@[simp] theorem State.transmit_record (m : Message) (j : RecIx) : (s.transmit m).record j = s.record j := by simp [State.record]
@[simp] theorem State.transmit_tag (m : Message) (g : TagIx) : (s.transmit m).tag g = s.tag g := by simp [State.tag]

/-! ### `State.reply` -/

@[simp] theorem State.reply_ref (d : Station) (k : ReplyCode) (a : Bool) (c b : Byte) : (s.reply d k a c b).ref = s.ref := rfl
@[simp] theorem State.reply_chans (d : Station) (k : ReplyCode) (a : Bool) (c b : Byte) : (s.reply d k a c b).chans = s.chans := rfl
@[simp] theorem State.reply_pool (d : Station) (k : ReplyCode) (a : Bool) (c b : Byte) : (s.reply d k a c b).pool = s.pool := rfl
@[simp] theorem State.reply_mem (d : Station) (k : ReplyCode) (a : Bool) (c b : Byte) : (s.reply d k a c b).mem = s.mem := rfl
@[simp] theorem State.reply_browse (d : Station) (k : ReplyCode) (a : Bool) (c b : Byte) : (s.reply d k a c b).browse = s.browse := rfl
@[simp] theorem State.reply_arb (d : Station) (k : ReplyCode) (a : Bool) (c b : Byte) : (s.reply d k a c b).arb = s.arb := rfl
@[simp] theorem State.reply_link (d : Station) (k : ReplyCode) (a : Bool) (c b : Byte) : (s.reply d k a c b).link = s.link := rfl
@[simp] theorem State.reply_status (d : Station) (k : ReplyCode) (a : Bool) (c b : Byte) : (s.reply d k a c b).status = s.status := rfl
@[simp] theorem State.reply_storeHalt (d : Station) (k : ReplyCode) (a : Bool) (c b : Byte) : (s.reply d k a c b).storeHalt = s.storeHalt := rfl
@[simp] theorem State.reply_storeOut (d : Station) (k : ReplyCode) (a : Bool) (c b : Byte) : (s.reply d k a c b).storeOut = s.storeOut := rfl
@[simp] theorem State.reply_lineOut (d : Station) (k : ReplyCode) (a : Bool) (c b : Byte) : (s.reply d k a c b).lineOut = s.lineOut := rfl
@[simp] theorem State.reply_pending (d : Station) (k : ReplyCode) (a : Bool) (c b : Byte) : (s.reply d k a c b).pending = s.pending := rfl
@[simp] theorem State.reply_chan (d : Station) (k : ReplyCode) (a : Bool) (c b : Byte) (e : Port) : (s.reply d k a c b).chan e = s.chan e := by simp [State.chan]
@[simp] theorem State.reply_record (d : Station) (k : ReplyCode) (a : Bool) (c b : Byte) (j : RecIx) : (s.reply d k a c b).record j = s.record j := by simp [State.record]
@[simp] theorem State.reply_tag (d : Station) (k : ReplyCode) (a : Bool) (c b : Byte) (g : TagIx) : (s.reply d k a c b).tag g = s.tag g := by simp [State.tag]

/-! ### `State.notice` -/

@[simp] theorem State.notice_ref (k : Cause) (r c : Byte) (n : HouseCount) : (s.notice k r c n).ref = s.ref := by unfold State.notice; split <;> rfl
@[simp] theorem State.notice_chans (k : Cause) (r c : Byte) (n : HouseCount) : (s.notice k r c n).chans = s.chans := by unfold State.notice; split <;> rfl
@[simp] theorem State.notice_pool (k : Cause) (r c : Byte) (n : HouseCount) : (s.notice k r c n).pool = s.pool := by unfold State.notice; split <;> rfl
@[simp] theorem State.notice_mem (k : Cause) (r c : Byte) (n : HouseCount) : (s.notice k r c n).mem = s.mem := by unfold State.notice; split <;> rfl
@[simp] theorem State.notice_browse (k : Cause) (r c : Byte) (n : HouseCount) : (s.notice k r c n).browse = s.browse := by unfold State.notice; split <;> rfl
@[simp] theorem State.notice_arb (k : Cause) (r c : Byte) (n : HouseCount) : (s.notice k r c n).arb = s.arb := by unfold State.notice; split <;> rfl
@[simp] theorem State.notice_link (k : Cause) (r c : Byte) (n : HouseCount) : (s.notice k r c n).link = s.link := by unfold State.notice; split <;> rfl
@[simp] theorem State.notice_status (k : Cause) (r c : Byte) (n : HouseCount) : (s.notice k r c n).status = s.status := by unfold State.notice; split <;> rfl
@[simp] theorem State.notice_storeHalt (k : Cause) (r c : Byte) (n : HouseCount) : (s.notice k r c n).storeHalt = s.storeHalt := by unfold State.notice; split <;> rfl
@[simp] theorem State.notice_storeOut (k : Cause) (r c : Byte) (n : HouseCount) : (s.notice k r c n).storeOut = s.storeOut := by unfold State.notice; split <;> rfl
@[simp] theorem State.notice_lineOut (k : Cause) (r c : Byte) (n : HouseCount) : (s.notice k r c n).lineOut = s.lineOut := by unfold State.notice; split <;> rfl
@[simp] theorem State.notice_pending (k : Cause) (r c : Byte) (n : HouseCount) : (s.notice k r c n).pending = s.pending := by unfold State.notice; split <;> rfl
@[simp] theorem State.notice_chan (k : Cause) (r c : Byte) (n : HouseCount) (e : Port) : (s.notice k r c n).chan e = s.chan e := by simp [State.chan]
@[simp] theorem State.notice_record (k : Cause) (r c : Byte) (n : HouseCount) (j : RecIx) : (s.notice k r c n).record j = s.record j := by simp [State.record]
@[simp] theorem State.notice_tag (k : Cause) (r c : Byte) (n : HouseCount) (g : TagIx) : (s.notice k r c n).tag g = s.tag g := by simp [State.tag]

/-! ### `State.engineNotice` -/

@[simp] theorem State.engineNotice_ref (k : Cause) (r : Byte) : (s.engineNotice k r).ref = s.ref := by unfold State.engineNotice; simp
@[simp] theorem State.engineNotice_chans (k : Cause) (r : Byte) : (s.engineNotice k r).chans = s.chans := by unfold State.engineNotice; simp
@[simp] theorem State.engineNotice_pool (k : Cause) (r : Byte) : (s.engineNotice k r).pool = s.pool := by unfold State.engineNotice; simp
@[simp] theorem State.engineNotice_mem (k : Cause) (r : Byte) : (s.engineNotice k r).mem = s.mem := by unfold State.engineNotice; simp
@[simp] theorem State.engineNotice_browse (k : Cause) (r : Byte) : (s.engineNotice k r).browse = s.browse := by unfold State.engineNotice; simp
@[simp] theorem State.engineNotice_arb (k : Cause) (r : Byte) : (s.engineNotice k r).arb = s.arb := by unfold State.engineNotice; simp
@[simp] theorem State.engineNotice_link (k : Cause) (r : Byte) : (s.engineNotice k r).link = s.link := by unfold State.engineNotice; simp
@[simp] theorem State.engineNotice_status (k : Cause) (r : Byte) : (s.engineNotice k r).status = s.status := by unfold State.engineNotice; simp
@[simp] theorem State.engineNotice_storeHalt (k : Cause) (r : Byte) : (s.engineNotice k r).storeHalt = s.storeHalt := by unfold State.engineNotice; simp
@[simp] theorem State.engineNotice_storeOut (k : Cause) (r : Byte) : (s.engineNotice k r).storeOut = s.storeOut := by unfold State.engineNotice; simp
@[simp] theorem State.engineNotice_lineOut (k : Cause) (r : Byte) : (s.engineNotice k r).lineOut = s.lineOut := by unfold State.engineNotice; simp
@[simp] theorem State.engineNotice_pending (k : Cause) (r : Byte) : (s.engineNotice k r).pending = s.pending := by unfold State.engineNotice; simp
@[simp] theorem State.engineNotice_chan (k : Cause) (r : Byte) (e : Port) : (s.engineNotice k r).chan e = s.chan e := by simp [State.chan]
@[simp] theorem State.engineNotice_record (k : Cause) (r : Byte) (j : RecIx) : (s.engineNotice k r).record j = s.record j := by simp [State.record]
@[simp] theorem State.engineNotice_tag (k : Cause) (r : Byte) (g : TagIx) : (s.engineNotice k r).tag g = s.tag g := by simp [State.tag]

/-! ### `State.channelNotice` -/

@[simp] theorem State.channelNotice_ref (k : Cause) (r : Byte) (c : Port) : (s.channelNotice k r c).ref = s.ref := by unfold State.channelNotice; simp
@[simp] theorem State.channelNotice_chans (k : Cause) (r : Byte) (c : Port) : (s.channelNotice k r c).chans = s.chans := by unfold State.channelNotice; simp
@[simp] theorem State.channelNotice_pool (k : Cause) (r : Byte) (c : Port) : (s.channelNotice k r c).pool = s.pool := by unfold State.channelNotice; simp
@[simp] theorem State.channelNotice_mem (k : Cause) (r : Byte) (c : Port) : (s.channelNotice k r c).mem = s.mem := by unfold State.channelNotice; simp
@[simp] theorem State.channelNotice_browse (k : Cause) (r : Byte) (c : Port) : (s.channelNotice k r c).browse = s.browse := by unfold State.channelNotice; simp
@[simp] theorem State.channelNotice_arb (k : Cause) (r : Byte) (c : Port) : (s.channelNotice k r c).arb = s.arb := by unfold State.channelNotice; simp
@[simp] theorem State.channelNotice_link (k : Cause) (r : Byte) (c : Port) : (s.channelNotice k r c).link = s.link := by unfold State.channelNotice; simp
@[simp] theorem State.channelNotice_status (k : Cause) (r : Byte) (c : Port) : (s.channelNotice k r c).status = s.status := by unfold State.channelNotice; simp
@[simp] theorem State.channelNotice_storeHalt (k : Cause) (r : Byte) (c : Port) : (s.channelNotice k r c).storeHalt = s.storeHalt := by unfold State.channelNotice; simp
@[simp] theorem State.channelNotice_storeOut (k : Cause) (r : Byte) (c : Port) : (s.channelNotice k r c).storeOut = s.storeOut := by unfold State.channelNotice; simp
@[simp] theorem State.channelNotice_lineOut (k : Cause) (r : Byte) (c : Port) : (s.channelNotice k r c).lineOut = s.lineOut := by unfold State.channelNotice; simp
@[simp] theorem State.channelNotice_pending (k : Cause) (r : Byte) (c : Port) : (s.channelNotice k r c).pending = s.pending := by unfold State.channelNotice; simp
@[simp] theorem State.channelNotice_chan (k : Cause) (r : Byte) (c : Port) (e : Port) : (s.channelNotice k r c).chan e = s.chan e := by simp [State.chan]
@[simp] theorem State.channelNotice_record (k : Cause) (r : Byte) (c : Port) (j : RecIx) : (s.channelNotice k r c).record j = s.record j := by simp [State.record]
@[simp] theorem State.channelNotice_tag (k : Cause) (r : Byte) (c : Port) (g : TagIx) : (s.channelNotice k r c).tag g = s.tag g := by simp [State.tag]

/-! ### What an update changes -/

theorem State.chan_setChan (c d : Port) (x : Channel) : (s.setChan c x).chan d = if d = c then x else s.chan d := by
  simp only [State.chan, State.setChan]; exact vector_get_set _ _ _ _

@[simp] theorem State.chan_setChan_same (c : Port) (x : Channel) : (s.setChan c x).chan c = x := by
  simp [State.chan_setChan]

theorem State.chan_setChan_other {c d : Port} (x : Channel) (h : d ≠ c) : (s.setChan c x).chan d = s.chan d := by
  simp [State.chan_setChan, h]

theorem State.record_onRec (i j : RecIx) (f : Record → Record) :
    (s.onRec i f).record j = if j = i then f (s.record i) else s.record j := by
  simp only [State.record, State.onRec]; exact vector_get_set _ _ _ _

@[simp] theorem State.record_onRec_same (i : RecIx) (f : Record → Record) : (s.onRec i f).record i = f (s.record i) := by
  simp [State.record_onRec]

theorem State.record_onRec_other {i j : RecIx} (f : Record → Record) (h : j ≠ i) :
    (s.onRec i f).record j = s.record j := by
  simp [State.record_onRec, h]

theorem State.tag_setTag (t k : TagIx) (x : TagState) : (s.setTag t x).tag k = if k = t then x else s.tag k := by
  simp only [State.tag, State.setTag]; exact vector_get_set _ _ _ _

@[simp] theorem State.onRec_free (i : RecIx) (f : Record → Record) : (s.onRec i f).pool.free = s.pool.free := rfl
@[simp] theorem State.onRec_evictions (i : RecIx) (f : Record → Record) :
    (s.onRec i f).pool.evictions = s.pool.evictions := rfl

@[simp] theorem State.onPort_chan (c : Port) (f : FeedPort → FeedPort) :
    (s.onPort c f).chan c = { s.chan c with port := f (s.chan c).port } := by simp [State.onPort]

theorem State.onPort_chan_other {c d : Port} (f : FeedPort → FeedPort) (h : d ≠ c) : (s.onPort c f).chan d = s.chan d := by
  simp [State.onPort, State.chan_setChan, h]

@[simp] theorem State.onSync_chan (c : Port) (f : Synchroniser → Synchroniser) :
    (s.onSync c f).chan c = { s.chan c with sync := f (s.chan c).sync } := by simp [State.onSync]

theorem State.onSync_chan_other {c d : Port} (f : Synchroniser → Synchroniser) (h : d ≠ c) : (s.onSync c f).chan d = s.chan d := by
  simp [State.onSync, State.chan_setChan, h]

@[simp] theorem State.onTake_chan (c : Port) (f : TakeController → TakeController) :
    (s.onTake c f).chan c = { s.chan c with take := f (s.chan c).take } := by simp [State.onTake]

theorem State.onTake_chan_other {c d : Port} (f : TakeController → TakeController) (h : d ≠ c) : (s.onTake c f).chan d = s.chan d := by
  simp [State.onTake, State.chan_setChan, h]

@[simp] theorem State.onSel_chan (c : Port) (f : Selector → Selector) :
    (s.onSel c f).chan c = { s.chan c with sel := f (s.chan c).sel } := by simp [State.onSel]

theorem State.onSel_chan_other {c d : Port} (f : Selector → Selector) (h : d ≠ c) : (s.onSel c f).chan d = s.chan d := by
  simp [State.onSel, State.chan_setChan, h]

/-! ### `State.freeRecord` (R79) -/

@[simp] theorem State.freeRecord_ref (i : RecIx) : (s.freeRecord i).ref = s.ref := rfl
@[simp] theorem State.freeRecord_chans (i : RecIx) : (s.freeRecord i).chans = s.chans := rfl
@[simp] theorem State.freeRecord_mem (i : RecIx) : (s.freeRecord i).mem = s.mem := rfl
@[simp] theorem State.freeRecord_browse (i : RecIx) : (s.freeRecord i).browse = s.browse := rfl
@[simp] theorem State.freeRecord_arb (i : RecIx) : (s.freeRecord i).arb = s.arb := rfl
@[simp] theorem State.freeRecord_link (i : RecIx) : (s.freeRecord i).link = s.link := rfl
@[simp] theorem State.freeRecord_cue (i : RecIx) : (s.freeRecord i).cue = s.cue := rfl
@[simp] theorem State.freeRecord_status (i : RecIx) : (s.freeRecord i).status = s.status := rfl
@[simp] theorem State.freeRecord_storeHalt (i : RecIx) : (s.freeRecord i).storeHalt = s.storeHalt := rfl
@[simp] theorem State.freeRecord_storeOut (i : RecIx) : (s.freeRecord i).storeOut = s.storeOut := rfl
@[simp] theorem State.freeRecord_lineOut (i : RecIx) : (s.freeRecord i).lineOut = s.lineOut := rfl
@[simp] theorem State.freeRecord_pending (i : RecIx) : (s.freeRecord i).pending = s.pending := rfl

/-- Freeing joins a record's essence pages, then its browse pages, to the tail of the free list (R79). -/
@[simp] theorem State.freeRecord_free (i : RecIx) :
    (s.freeRecord i).pool.free = s.pool.free ++ (s.record i).essPages ++ (s.record i).brwPages := rfl

@[simp] theorem State.freeRecord_evictions (i : RecIx) : (s.freeRecord i).pool.evictions = s.pool.evictions := rfl

/-- The freed record is in the cleared form, and no other record changes (R78, R79). -/
theorem State.freeRecord_record (i j : RecIx) :
    (s.freeRecord i).record j = if j = i then Record.cleared else s.record j := by
  simp only [State.record, State.freeRecord]; exact vector_get_set _ _ _ _

@[simp] theorem State.freeRecord_chan (i : RecIx) (c : Port) : (s.freeRecord i).chan c = s.chan c := rfl
@[simp] theorem State.freeRecord_tag (i : RecIx) (k : TagIx) : (s.freeRecord i).tag k = s.tag k := rfl

end Sys2Proof.Machine
end

