-- ==== Sys2Proof/Laws/Access.lean ====
section
/-! SUPPORT. Two updates of one channel or one record are one update; what the searches over channels, records and tags
find. -/

namespace Sys2Proof.Machine

variable (s : State)

/-- The later of two writes of one cell stands. -/
theorem vector_set_set {α : Type} {n : Nat} (v : Vector α n) (i : Fin n) (x y : α) : (v.set i x).set i y = v.set i y := by
  ext j h
  simp only [Vector.getElem_set]
  split <;> rfl

theorem State.setChan_setChan (c : Port) (x y : Channel) : (s.setChan c x).setChan c y = s.setChan c y := by
  simp only [State.setChan, vector_set_set]

theorem State.setTag_setTag (k : TagIx) (x y : TagState) : (s.setTag k x).setTag k y = s.setTag k y := by
  simp only [State.setTag, vector_set_set]

theorem State.onPort_onPort (c : Port) (f g : FeedPort → FeedPort) :
    (s.onPort c f).onPort c g = s.onPort c fun p => g (f p) := by
  simp only [State.onPort, State.chan_setChan_same, State.setChan_setChan]

theorem State.onTake_onTake (c : Port) (f g : TakeController → TakeController) :
    (s.onTake c f).onTake c g = s.onTake c fun p => g (f p) := by
  simp only [State.onTake, State.chan_setChan_same, State.setChan_setChan]

theorem State.onSel_onSel (c : Port) (f g : Selector → Selector) :
    (s.onSel c f).onSel c g = s.onSel c fun p => g (f p) := by
  simp only [State.onSel, State.chan_setChan_same, State.setChan_setChan]

theorem State.onRec_onRec (i : RecIx) (f g : Record → Record) :
    (s.onRec i f).onRec i g = s.onRec i fun r => g (f r) := by
  have h : (s.onRec i f).record i = f (s.record i) := s.record_onRec_same i f
  have e : ∀ (t : State) (k : Record → Record),
      t.onRec i k = { t with pool := { t.pool with records := t.pool.records.set i (k (t.record i)) } } := fun _ _ => rfl
  rw [e (s.onRec i f), h, e s f, e s]
  simp only [vector_set_set]

theorem mem_allPorts (c : Port) : c ∈ allPorts := by fin_cases c <;> simp [allPorts]
theorem mem_allRecs (i : RecIx) : i ∈ allRecs := List.mem_finRange i
theorem mem_allTags (k : TagIx) : k ∈ allTags := List.mem_finRange k

/-- A feed is held exactly when some channel that is not IDLE holds it (R165). -/
theorem State.holder_isSome (f : FeedId) :
    (s.holder f).isSome = true ↔ ∃ c, (s.chan c).take.st ≠ .idle ∧ (s.chan c).port.feedId = some f := by
  simp only [State.holder, List.find?_isSome, Bool.and_eq_true, bne_iff_ne, beq_iff_eq]
  exact ⟨fun ⟨c, _, h⟩ => ⟨c, h⟩, fun ⟨c, h⟩ => ⟨c, mem_allPorts c, h⟩⟩

/-- The OPEN record found for a channel is OPEN and the channel's. -/
theorem State.openRecord_some (c : Port) (i : RecIx) (h : s.openRecord c = some i) :
    (s.record i).st = .opened ∧ (s.record i).channel = c := by
  have := List.find?_some h
  simpa using this

/-- The record found for a key is in use and has it. -/
theorem State.findKey_some (k : Key) (i : RecIx) (h : s.findKey k = some i) :
    (s.record i).st ≠ .free ∧ (s.record i).key = k := by
  have := List.find?_some h
  simpa using this

/-- Some OUTSTANDING tag holds a request of a record exactly when the search says so. -/
theorem State.hasOutstanding_iff (i : RecIx) :
    s.hasOutstanding i = true ↔ ∃ k q timer, s.tag k = .outstanding q timer ∧ q.record = i := by
  simp only [State.hasOutstanding, List.any_eq_true]
  constructor
  · rintro ⟨k, _, h⟩
    cases e : s.tag k with
    | outstanding q timer => exact ⟨k, q, timer, e, by rw [e] at h; simpa using h⟩
    | free => rw [e] at h; simp at h
    | quarantined q => rw [e] at h; simp at h
  · rintro ⟨k, q, timer, h1, h2⟩
    exact ⟨k, mem_allTags k, by rw [h1]; simpa using h2⟩

/-! ### The first of the records or tags in ascending order -/

/-- In a rising list the search finds the least that passes. -/
theorem find_least {n : Nat} {p : Fin n → Bool} {l : List (Fin n)} (hl : l.Pairwise (· < ·)) (i : Fin n) (hi : i ∈ l)
    (h : p i = true) (below : ∀ j, j < i → p j = false) : l.find? p = some i := by
  induction l with
  | nil => cases hi
  | cons x l ih =>
    rw [List.pairwise_cons] at hl
    rcases List.mem_cons.1 hi with e | hi
    · subst e
      simp [h]
    · simp [below x (hl.1 i hi), ih hl.2 hi]

theorem State.lowestFree_eq (i : RecIx) (h : (s.record i).st = .free) (below : ∀ j, j < i → (s.record j).st ≠ .free) :
    s.lowestFree = some i :=
  find_least (List.pairwise_lt_finRange 64) i (mem_allRecs i) (by simp [h]) fun j hj => by simp [below j hj]

theorem State.freeTag_eq (k : TagIx) (h : s.tag k = .free) (below : ∀ j, j < k → s.tag j ≠ .free) :
    s.freeTag = some k :=
  find_least (List.pairwise_lt_finRange 16) k (mem_allTags k) (by simp [h]) fun j hj => by simp [below j hj]

/-! ### Issuing, and the timers of a tick -/

/-- Issuing waits for a STORED that falls together with the event. -/
theorem State.issue_held (h : s.storedFollows = true) : s.issue = s := by simp [State.issue, h]

theorem State.issue_eq (h : s.storedFollows = false) : s.issue = s.issueUpTo 16 := by simp [State.issue, h]

theorem vector_get_map {α β : Type} {n : Nat} (f : α → β) (v : Vector α n) (i : Fin n) :
    (v.map f).get i = f (v.get i) := by simp [Vector.get_eq_getElem]

@[simp] theorem State.tickTimers_chan (c : Port) : s.tickTimers.chan c = (s.chan c).tickTimer :=
  vector_get_map _ _ _

@[simp] theorem State.tickTimers_record (i : RecIx) :
    s.tickTimers.record i = (s.record i).tickTimers s.link.latch := vector_get_map _ _ _

@[simp] theorem State.tickTimers_tag (k : TagIx) : s.tickTimers.tag k = (s.tag k).tickTimer := vector_get_map _ _ _

/-! ### The parts of a tick -/

/-- The parts of a tick are those its order names and the work of the channels, each once. -/
theorem mem_tickParts (t : TickInput) (part : TickPart) :
    part ∈ tickParts t ↔ part ∈ t.order ∨ part ∈ allPorts.flatMap channelParts := by
  simp [tickParts]

end Sys2Proof.Machine
end

