-- ==== Sys2Proof/Laws/Chans.lean ====
section
/-! SUPPORT. The operations on the pool, the store link and the segments that leave every channel as it is. -/

namespace Sys2Proof.Machine

variable (s : State)

@[simp] theorem State.evict_chans (i : RecIx) : (s.evict i).chans = s.chans := by simp [State.evict]

@[simp] theorem State.lowMarkTest_chans (fuel : Nat) : (s.lowMarkTest fuel).chans = s.chans := by
  induction fuel generalizing s with
  | zero => rfl
  | succ n ih =>
    unfold State.lowMarkTest
    split
    · split
      · rw [ih, s.evict_chans]
      · rfl
    · rfl

theorem State.takePage_chans (i : RecIx) (l : PageList) (t : State) (h : s.takePage i l = some t) : t.chans = s.chans := by
  unfold State.takePage at h
  split at h
  · cases h
  · cases h
    simp

theorem State.takePages_chans (i : RecIx) (l : PageList) (n : Nat) : (s.takePages i l n).1.chans = s.chans := by
  induction n generalizing s with
  | zero => rfl
  | succ n ih =>
    unfold State.takePages
    split
    · rfl
    · rename_i t h
      rw [ih, s.takePage_chans i l t h]

@[simp] theorem State.giveBack_chans (i : RecIx) (l : PageList) (n : Nat) : (s.giveBack i l n).chans = s.chans := rfl

@[simp] theorem State.requestPages_chans (i : RecIx) (l : PageList) (n : Nat) :
    (s.requestPages i l n).1.chans = s.chans := by
  unfold State.requestPages
  dsimp only
  split
  · rfl
  · have h := s.takePages_chans i l n
    split
    · rename_i t e; rw [e] at h; exact h
    · rename_i t e; rw [e] at h; exact h

@[simp] theorem State.issueOne_chans (t : TagIx) (i : RecIx) (ref : PageRef) : (s.issueOne t i ref).chans = s.chans := rfl

@[simp] theorem State.issueUpTo_chans (fuel : Nat) : (s.issueUpTo fuel).chans = s.chans := by
  induction fuel generalizing s with
  | zero => rfl
  | succ n ih =>
    unfold State.issueUpTo
    split
    · split
      · rw [ih, State.issueOne_chans]
      · rfl
    · rfl

@[simp] theorem State.issue_chans : s.issue.chans = s.chans := by
  unfold State.issue
  split <;> simp

@[simp] theorem State.joinWriteQueue_chans (i : RecIx) : (s.joinWriteQueue i).chans = s.chans := by
  simp [State.joinWriteQueue]

@[simp] theorem State.leaveWriteQueue_chans (i : RecIx) : (s.leaveWriteQueue i).chans = s.chans := rfl

@[simp] theorem State.settleFailed_chans (i : RecIx) : (s.settleFailed i).chans = s.chans := by
  unfold State.settleFailed
  split <;> rfl

@[simp] theorem State.failRecord_chans (i : RecIx) : (s.failRecord i).chans = s.chans := by simp [State.failRecord]

@[simp] theorem State.haltStore_chans (r : Byte) : (s.haltStore r).chans = s.chans := by
  unfold State.haltStore
  split <;> simp

@[simp] theorem State.countStray_chans : s.countStray.chans = s.chans := rfl

@[simp] theorem State.countOpen_chans (c : Port) (f : Counts → Counts) : (s.countOpen c f).chans = s.chans := by
  unfold State.countOpen
  split <;> rfl

@[simp] theorem State.closeComplete_chans (i : RecIx) : (s.closeComplete i).chans = s.chans := by
  unfold State.closeComplete
  dsimp only
  split
  · rfl
  · split
    · rfl
    · simp

@[simp] theorem State.closeRecord_chans (torn : Bool) (i : RecIx) : (s.closeRecord torn i).chans = s.chans := by
  unfold State.closeRecord
  dsimp only
  split
  · simp
  · rfl

@[simp] theorem State.closeOpen_chans (torn : Bool) (c : Port) : (s.closeOpen torn c).chans = s.chans := by
  unfold State.closeOpen
  split
  · simp
  · rfl

@[simp] theorem State.closeOpen_chan (torn : Bool) (c d : Port) : (s.closeOpen torn c).chan d = s.chan d := by
  simp [State.chan]

@[simp] theorem State.countOpen_chan (c d : Port) (f : Counts → Counts) : (s.countOpen c f).chan d = s.chan d := by
  simp [State.chan]

@[simp] theorem State.withdraw_chan (i : RecIx) (d : Port) : (s.withdraw i).chan d = s.chan d := rfl

@[simp] theorem State.evict_chan (i : RecIx) (d : Port) : (s.evict i).chan d = s.chan d := by simp [State.chan]

/-- Re-evaluating the tally changes the tally of its channel alone (R31). -/
theorem State.retally_chan_other {c d : Port} (h : d ≠ c) : (s.retally c).chan d = s.chan d := by
  unfold State.retally
  dsimp only
  split
  · rfl
  · exact s.onPort_chan_other _ h

@[simp] theorem State.retally_sync (c : Port) : ((s.retally c).chan c).sync = (s.chan c).sync := by
  unfold State.retally
  dsimp only
  split
  · rfl
  · simp

@[simp] theorem State.retally_take (c : Port) : ((s.retally c).chan c).take = (s.chan c).take := by
  unfold State.retally
  dsimp only
  split
  · rfl
  · simp

@[simp] theorem State.retally_sel (c : Port) : ((s.retally c).chan c).sel = (s.chan c).sel := by
  unfold State.retally
  dsimp only
  split
  · rfl
  · simp

/-- The tally after a re-evaluation is the one of R31's table. -/
theorem State.retally_port (c : Port) : ∃ phase out, ((s.retally c).chan c).port =
    { (s.chan c).port with
      tally := tallyOf (s.chan c).port.faultMark (s.chan c).take.st (s.chan c).port.feed, tallyPhase := phase,
      tallyOut := out } := by
  unfold State.retally
  dsimp only
  split
  · rename_i h; exact ⟨(s.chan c).port.tallyPhase, (s.chan c).port.tallyOut, by rw [h]⟩
  · exact ⟨0, _, by rw [State.onPort_chan]⟩

end Sys2Proof.Machine
end

