-- ==== Sys2Proof/Laws/Frame.lean ====
section
/-! SUPPORT. What the operations shared by the commands leave alone: the Reference Unit, the Status block, the STORE-HALT
level, the record of what was sent on the cue line, and the queue of waiting commands. One lemma per operation. -/

namespace Sys2Proof.Machine

/-- Two states agree on everything that no operation on channels, records, tags, jobs and queued messages writes. -/
structure Keeps (s t : State) : Prop where
  ref : t.ref = s.ref
  status : t.status = s.status
  storeHalt : t.storeHalt = s.storeHalt
  lineOut : t.lineOut = s.lineOut
  pending : t.pending = s.pending

theorem Keeps.refl (s : State) : Keeps s s := ⟨rfl, rfl, rfl, rfl, rfl⟩

theorem Keeps.trans {s t u : State} (h : Keeps s t) (k : Keeps t u) : Keeps s u :=
  ⟨k.ref.trans h.ref, k.status.trans h.status, k.storeHalt.trans h.storeHalt, k.lineOut.trans h.lineOut,
    k.pending.trans h.pending⟩

theorem Keeps.after {s t u : State} (k : Keeps t u) (h : Keeps s t) : Keeps s u := h.trans k

/-- A fold keeps what each of its steps keeps. -/
theorem Keeps.foldl {α : Type} {f : State → α → State} (h : ∀ s a, Keeps s (f s a)) (l : List α) (s : State) :
    Keeps s (l.foldl f s) := by
  induction l generalizing s with
  | nil => exact Keeps.refl s
  | cons a l ih => exact (h s a).trans (ih _)

variable (s : State)

theorem State.setChan_keeps (c : Port) (x : Channel) : Keeps s (s.setChan c x) := ⟨rfl, rfl, rfl, rfl, rfl⟩
theorem State.onPort_keeps (c : Port) (f : FeedPort → FeedPort) : Keeps s (s.onPort c f) := ⟨rfl, rfl, rfl, rfl, rfl⟩
theorem State.onSync_keeps (c : Port) (f : Synchroniser → Synchroniser) : Keeps s (s.onSync c f) :=
  ⟨rfl, rfl, rfl, rfl, rfl⟩
theorem State.onTake_keeps (c : Port) (f : TakeController → TakeController) : Keeps s (s.onTake c f) :=
  ⟨rfl, rfl, rfl, rfl, rfl⟩
theorem State.onSel_keeps (c : Port) (f : Selector → Selector) : Keeps s (s.onSel c f) := ⟨rfl, rfl, rfl, rfl, rfl⟩
theorem State.onRec_keeps (i : RecIx) (f : Record → Record) : Keeps s (s.onRec i f) := ⟨rfl, rfl, rfl, rfl, rfl⟩
theorem State.setTag_keeps (t : TagIx) (x : TagState) : Keeps s (s.setTag t x) := ⟨rfl, rfl, rfl, rfl, rfl⟩
theorem State.transmit_keeps (m : Message) : Keeps s (s.transmit m) := ⟨rfl, rfl, rfl, rfl, rfl⟩
theorem State.reply_keeps (d : Station) (k : ReplyCode) (a : Bool) (c b : Byte) : Keeps s (s.reply d k a c b) :=
  ⟨rfl, rfl, rfl, rfl, rfl⟩
theorem State.notice_keeps (k : Cause) (r c : Byte) (n : HouseCount) : Keeps s (s.notice k r c n) := by
  constructor <;> simp
theorem State.engineNotice_keeps (k : Cause) (r : Byte) : Keeps s (s.engineNotice k r) := by constructor <;> simp
theorem State.channelNotice_keeps (k : Cause) (r : Byte) (c : Port) : Keeps s (s.channelNotice k r c) := by
  constructor <;> simp
theorem State.freeRecord_keeps (i : RecIx) : Keeps s (s.freeRecord i) := ⟨rfl, rfl, rfl, rfl, rfl⟩

theorem State.retally_keeps (c : Port) : Keeps s (s.retally c) := by
  unfold State.retally
  dsimp only
  split
  · exact Keeps.refl s
  · exact s.onPort_keeps c _

theorem State.tallyStep_keeps (c : Port) : Keeps s (s.tallyStep c) := s.onPort_keeps c _

/-! ### Staging pool -/

theorem State.evict_keeps (i : RecIx) : Keeps s (s.evict i) := by
  unfold State.evict
  dsimp only
  exact Keeps.after (State.channelNotice_keeps _ _ _ _) ⟨rfl, rfl, rfl, rfl, rfl⟩

theorem State.lowMarkTest_keeps (fuel : Nat) : Keeps s (s.lowMarkTest fuel) := by
  induction fuel generalizing s with
  | zero => exact Keeps.refl s
  | succ n ih =>
    unfold State.lowMarkTest
    split
    · split
      · exact (s.evict_keeps _).trans (ih _)
      · exact Keeps.refl s
    · exact Keeps.refl s

theorem State.takePage_keeps (i : RecIx) (l : PageList) (t : State) (h : s.takePage i l = some t) : Keeps s t := by
  unfold State.takePage at h
  split at h
  · cases h
  · cases h
    exact Keeps.after (State.lowMarkTest_keeps _ _) ⟨rfl, rfl, rfl, rfl, rfl⟩

theorem State.takePages_keeps (i : RecIx) (l : PageList) (n : Nat) : Keeps s (s.takePages i l n).1 := by
  induction n generalizing s with
  | zero => exact Keeps.refl s
  | succ n ih =>
    unfold State.takePages
    split
    · exact Keeps.refl s
    · rename_i t h
      exact (s.takePage_keeps i l t h).trans (ih t)

theorem State.giveBack_keeps (i : RecIx) (l : PageList) (n : Nat) : Keeps s (s.giveBack i l n) :=
  ⟨rfl, rfl, rfl, rfl, rfl⟩

theorem State.requestPages_keeps (i : RecIx) (l : PageList) (n : Nat) : Keeps s (s.requestPages i l n).1 := by
  unfold State.requestPages
  dsimp only
  split
  · exact Keeps.refl s
  · have h := s.takePages_keeps i l n
    split
    · rename_i t e; rw [e] at h; exact h
    · rename_i t e; rw [e] at h; exact h.trans (State.giveBack_keeps _ _ _ _)

/-! ### Store link -/

theorem State.issueOne_keeps (t : TagIx) (i : RecIx) (ref : PageRef) : Keeps s (s.issueOne t i ref) :=
  ⟨rfl, rfl, rfl, rfl, rfl⟩

theorem State.issueUpTo_keeps (fuel : Nat) : Keeps s (s.issueUpTo fuel) := by
  induction fuel generalizing s with
  | zero => exact Keeps.refl s
  | succ n ih =>
    unfold State.issueUpTo
    split
    · split
      · exact (s.issueOne_keeps _ _ _).trans (ih _)
      · exact Keeps.refl s
    · exact Keeps.refl s

theorem State.issue_keeps : Keeps s s.issue := by
  unfold State.issue
  split
  · exact Keeps.refl s
  · exact s.issueUpTo_keeps 16

theorem State.joinWriteQueue_keeps (i : RecIx) : Keeps s (s.joinWriteQueue i) := by
  unfold State.joinWriteQueue
  dsimp only
  exact Keeps.after (State.issue_keeps _) ⟨rfl, rfl, rfl, rfl, rfl⟩

theorem State.leaveWriteQueue_keeps (i : RecIx) : Keeps s (s.leaveWriteQueue i) := ⟨rfl, rfl, rfl, rfl, rfl⟩

theorem State.settleFailed_keeps (i : RecIx) : Keeps s (s.settleFailed i) := by
  unfold State.settleFailed
  split
  · exact ⟨rfl, rfl, rfl, rfl, rfl⟩
  · exact Keeps.refl s

theorem State.failRecord_keeps (i : RecIx) : Keeps s (s.failRecord i) :=
  (s.onRec_keeps i _).trans (State.settleFailed_keeps _ _)

theorem State.haltStore_keeps (r : Byte) : Keeps s (s.haltStore r) := by
  unfold State.haltStore
  dsimp only
  split
  · exact Keeps.after (State.engineNotice_keeps _ _ _) ⟨rfl, rfl, rfl, rfl, rfl⟩
  · exact Keeps.refl s

theorem State.countStray_keeps : Keeps s s.countStray := ⟨rfl, rfl, rfl, rfl, rfl⟩

theorem State.ackOk_keeps (i : RecIx) (ref : PageRef) : Keeps s (s.ackOk i ref) := by
  unfold State.ackOk
  split
  · exact s.settleFailed_keeps i
  · split <;> exact ⟨rfl, rfl, rfl, rfl, rfl⟩

theorem State.ackFull_keeps (i : RecIx) (ref : PageRef) : Keeps s (s.ackFull i ref) := by
  unfold State.ackFull
  dsimp only
  split
  · exact (s.settleFailed_keeps i).trans (State.haltStore_keeps _ _)
  · exact (s.onRec_keeps i _).trans (State.haltStore_keeps _ _)

theorem State.ackFault_keeps (i : RecIx) : Keeps s (s.ackFault i) := by
  unfold State.ackFault
  split
  · exact s.settleFailed_keeps i
  · exact s.failRecord_keeps i

theorem State.ackTag_keeps (t : TagIx) (b : Byte) : Keeps s (s.ackTag t b) := by
  unfold State.ackTag
  split
  · refine ((s.setTag_keeps t .free).trans ?_).trans (State.issue_keeps _)
    unfold State.ackStatus
    split
    · exact State.ackOk_keeps _ _ _
    · split
      · exact State.ackFull_keeps _ _ _
      · exact State.ackFault_keeps _ _
  · exact ((s.setTag_keeps t _).trans (State.countStray_keeps _)).trans (State.issue_keeps _)
  · exact s.countStray_keeps

/-! ### Segments -/

theorem State.countOpen_keeps (c : Port) (f : Counts → Counts) : Keeps s (s.countOpen c f) := by
  unfold State.countOpen
  split
  · exact s.onRec_keeps _ _
  · exact Keeps.refl s

theorem State.closeComplete_keeps (i : RecIx) : Keeps s (s.closeComplete i) := by
  unfold State.closeComplete
  dsimp only
  split
  · exact ⟨rfl, rfl, rfl, rfl, rfl⟩
  · split
    · exact ⟨rfl, rfl, rfl, rfl, rfl⟩
    · exact Keeps.after (State.joinWriteQueue_keeps _ _) ⟨rfl, rfl, rfl, rfl, rfl⟩

theorem State.closeRecord_keeps (torn : Bool) (i : RecIx) : Keeps s (s.closeRecord torn i) := by
  unfold State.closeRecord
  dsimp only
  split
  · exact (s.onRec_keeps i _).trans (State.closeComplete_keeps _ _)
  · exact ⟨rfl, rfl, rfl, rfl, rfl⟩

theorem State.closeOpen_keeps (torn : Bool) (c : Port) : Keeps s (s.closeOpen torn c) := by
  unfold State.closeOpen
  split
  · exact s.closeRecord_keeps torn _
  · exact Keeps.refl s

theorem State.overrun_keeps (r : Byte) (c : Port) : Keeps s (s.overrun r c) :=
  (s.onTake_keeps c _).trans (State.channelNotice_keeps _ _ _ _)

theorem State.openSegment_keeps (c : Port) (key : Key) : Keeps s (s.openSegment c key) := by
  unfold State.openSegment
  dsimp only
  split
  · exact s.overrun_keeps _ c
  · split
    · exact s.onRec_keeps _ _
    · split
      · exact (s.evict_keeps _).trans (State.onRec_keeps _ _ _)
      · exact s.overrun_keeps _ c

/-! ### Browse Unit -/

theorem State.startCoder_keeps : Keeps s s.startCoder := by
  unfold State.startCoder
  split
  · exact ⟨rfl, rfl, rfl, rfl, rfl⟩
  · exact Keeps.refl s

theorem State.appendEntry_keeps (i : RecIx) (e : BrowseEntry) : Keeps s (s.appendEntry i e) := s.onRec_keeps i _
theorem State.setEntry_keeps (i : RecIx) (n : Nat) (e : BrowseEntry) : Keeps s (s.setEntry i n e) := s.onRec_keeps i _
theorem State.countSkip_keeps (c : Port) : Keeps s (s.countSkip c) := s.onSel_keeps c _

theorem State.selectPresent_keeps (c : Port) (i : RecIx) (o n : Nat) : Keeps s (s.selectPresent c i o n) := by
  unfold State.selectPresent
  dsimp only
  split
  · exact Keeps.after (State.startCoder_keeps _) ⟨rfl, rfl, rfl, rfl, rfl⟩
  · exact (s.appendEntry_keeps i _).trans (State.countSkip_keeps _ _)

theorem State.offer_keeps (c : Port) (i : RecIx) (f : Option (Nat × Nat)) : Keeps s (s.offer c i f) := by
  unfold State.offer
  dsimp only
  split
  · split
    · exact (s.onSel_keeps c _).trans (State.selectPresent_keeps _ _ _ _ _)
    · exact (s.onSel_keeps c _).trans (State.appendEntry_keeps _ _ _)
  · exact s.onSel_keeps c _

theorem State.settleSkip_keeps (j : Job) : Keeps s (s.settleSkip j) := ⟨rfl, rfl, rfl, rfl, rfl⟩

theorem State.settleKeep_keeps (j : Job) (b : List Byte) : Keeps s (s.settleKeep j b) := by
  unfold State.settleKeep
  dsimp only
  have h := s.requestPages_keeps j.record .browse
    (pagesFor ((s.record j.record).brwBytes + b.length) - (s.record j.record).brwPages.length)
  split
  · rename_i t e; rw [e] at h; exact h.trans ⟨rfl, rfl, rfl, rfl, rfl⟩
  · rename_i t e; rw [e] at h; exact h.trans (State.settleSkip_keeps _ _)

theorem State.settleJob_keeps (j : Job) (b : List Byte) : Keeps s (s.settleJob j b) := by
  unfold State.settleJob
  dsimp only
  split
  · exact s.settleSkip_keeps j
  · exact s.settleKeep_keeps j b

theorem State.nextJob_keeps : Keeps s s.nextJob := by
  unfold State.nextJob
  exact Keeps.after (State.startCoder_keeps _) ⟨rfl, rfl, rfl, rfl, rfl⟩

theorem State.closeIfDrained_keeps (i : RecIx) : Keeps s (s.closeIfDrained i) := by
  unfold State.closeIfDrained
  split
  · exact s.closeComplete_keeps i
  · exact Keeps.refl s

theorem State.complete_keeps (b : List Byte) : Keeps s (s.complete b) := by
  unfold State.complete
  split
  · split
    · exact s.nextJob_keeps
    · exact (((s.settleJob_keeps _ b).trans (State.onRec_keeps _ _ _)).trans (State.nextJob_keeps _)).trans
        (State.closeIfDrained_keeps _ _)
  · exact Keeps.refl s

theorem State.withdraw_keeps (i : RecIx) : Keeps s (s.withdraw i) := ⟨rfl, rfl, rfl, rfl, rfl⟩

theorem State.drainExpiry_keeps (i : RecIx) : Keeps s (s.drainExpiry i) := by
  unfold State.drainExpiry
  dsimp only
  exact Keeps.after (State.closeComplete_keeps _ _) ⟨rfl, rfl, rfl, rfl, rfl⟩

/-! ### Placement -/

theorem State.frameArrival_keeps (c : Port) (f : FrameRecord) : Keeps s (s.frameArrival c f) :=
  (s.onSync_keeps c _).trans (State.countOpen_keeps _ _ _)

theorem State.syncLoss_keeps (c : Port) : Keeps s (s.syncLoss c) :=
  (s.countOpen_keeps c _).trans (State.onSync_keeps _ _ _)

theorem State.pack_keeps (i : RecIx) (f : FrameRecord) : Keeps s (s.pack i f).1 := by
  unfold State.pack
  dsimp only
  have h := s.requestPages_keeps i .essence
    (pagesFor ((s.record i).essBytes + f.payload.length) - (s.record i).essPages.length)
  split
  · rename_i t e; rw [e] at h; exact h.trans ⟨rfl, rfl, rfl, rfl, rfl⟩
  · rename_i t e; rw [e] at h; exact h

theorem State.enterPlacement_keeps (c : Port) (i : RecIx) (k : PlacementKind) (b : Bool) (f : Option (Nat × Nat)) :
    Keeps s (s.enterPlacement c i k b f) :=
  (s.onRec_keeps i _).trans (State.offer_keeps _ _ _ _)

theorem State.appendPlacement_keeps (c : Port) (i : RecIx) (x : Placement) : Keeps s (s.appendPlacement c i x) := by
  unfold State.appendPlacement
  split
  · rename_i f
    have h := s.pack_keeps i f
    dsimp only
    split
    · rename_i t e; rw [e] at h; exact h.trans (State.enterPlacement_keeps _ _ _ _ _ _)
    · rename_i t e; rw [e] at h; exact h.trans (State.enterPlacement_keeps _ _ _ _ _ _)
  · exact s.enterPlacement_keeps _ _ _ _ _
  · exact s.enterPlacement_keeps _ _ _ _ _

theorem State.releasePlacement_keeps (c : Port) : Keeps s (s.releasePlacement c) := by
  unfold State.releasePlacement
  dsimp only
  split
  · exact s.onSync_keeps c _
  · exact ((s.onSync_keeps c _).trans (State.appendPlacement_keeps _ _ _ _)).trans (State.onRec_keeps _ _ _)


/-! ### Takes and ports -/

theorem State.takeEnd_keeps (r : EndReason) (c : Port) : Keeps s (s.takeEnd r c) := s.channelNotice_keeps _ _ _

theorem State.holdOverExpire_keeps (c : Port) : Keeps s (s.holdOverExpire c) :=
  (((s.closeOpen_keeps true c).trans (State.onTake_keeps _ _ _)).trans (State.retally_keeps _ _)).trans
    (State.takeEnd_keeps _ _ _)

theorem State.boundaryClose_keeps (c : Port) : Keeps s (s.boundaryClose c) := by
  unfold State.boundaryClose
  dsimp only
  split
  · exact (((s.closeOpen_keeps false c).trans (State.onTake_keeps _ _ _)).trans (State.retally_keeps _ _)).trans
      (State.takeEnd_keeps _ _ _)
  · exact s.closeOpen_keeps false c

theorem State.announceClip_keeps (c : Port) : Keeps s (s.announceClip c) :=
  ((s.channelNotice_keeps _ _ c).trans (State.channelNotice_keeps _ _ _ _)).trans (State.onSel_keeps _ _ _)

theorem State.takeStart_keeps (c : Port) (q : Cue) : Keeps s (s.takeStart c q) :=
  ((s.onTake_keeps c _).trans (State.retally_keeps _ _)).trans (State.announceClip_keeps _ _)

theorem State.replaceCue_keeps (c : Port) (q : Cue) : Keeps s (s.replaceCue c q) := by
  unfold State.replaceCue
  split
  · exact (s.onTake_keeps c _).trans (State.channelNotice_keeps _ _ _ _)
  · exact (s.onTake_keeps c _).trans (State.announceClip_keeps _ _)

theorem State.settleCue_keeps (c : Port) : Keeps s (s.settleCue c) := by
  unfold State.settleCue
  dsimp only
  split
  · split
    · exact s.replaceCue_keeps c _
    · split
      · exact Keeps.refl s
      · exact ((s.onTake_keeps c _).trans (State.retally_keeps _ _)).trans (State.takeEnd_keeps _ _ _)
  · exact Keeps.refl s

theorem State.openSpan_keeps (c : Port) : Keeps s (s.openSpan c) := by
  unfold State.openSpan
  dsimp only
  split
  · split
    · exact s.onTake_keeps c _
    · exact (s.onTake_keeps c _).trans (State.openSegment_keeps _ _ _)
  · exact (s.onTake_keeps c _).trans (State.openSegment_keeps _ _ _)

theorem State.boundary_keeps (c : Port) : Keeps s (s.boundary c) := by
  have h : ∀ t, Keeps s t → Keeps s (if (t.chan c).take.st = .recording then t.openSpan c else t) := by
    intro t ht
    split
    · exact ht.trans (t.openSpan_keeps c)
    · exact ht
  unfold State.boundary
  dsimp only
  apply h
  split
  · exact (s.boundaryClose_keeps c).trans (State.takeStart_keeps _ _ _)
  · exact (s.boundaryClose_keeps c).trans (State.settleCue_keeps _ _)
  · exact s.boundaryClose_keeps c

theorem State.declareLost_keeps (c : Port) (r : LossReason) : Keeps s (s.declareLost c r) := by
  unfold State.declareLost
  split
  · exact ((((s.onPort_keeps c _).trans (State.retally_keeps _ _)).trans (State.onPort_keeps _ _ _)).trans
      (State.channelNotice_keeps _ _ _ _)).trans (State.syncLoss_keeps _ _)
  · exact s.onPort_keeps c _

theorem State.feedBack_keeps (c : Port) : Keeps s (s.feedBack c) := by
  unfold State.feedBack
  dsimp only
  split
  · exact ((s.onPort_keeps c _).trans (State.retally_keeps _ _)).trans (State.onTake_keeps _ _ _)
  · exact (((s.onPort_keeps c _).trans (State.retally_keeps _ _)).trans (State.channelNotice_keeps _ _ _ _)).trans
      (State.onTake_keeps _ _ _)

theorem State.boundaryAndPlacement_keeps (b : Bool) (c : Port) : Keeps s (s.boundaryAndPlacement b c) := by
  unfold State.boundaryAndPlacement
  dsimp only
  split
  · exact (s.boundary_keeps c).trans (State.releasePlacement_keeps _ _)
  · exact s.releasePlacement_keeps c

theorem State.takeTick_keeps (b : Bool) (c : Port) : Keeps s (s.takeTick b c) := by
  unfold State.takeTick
  dsimp only
  split
  · exact Keeps.refl s
  · split
    · split
      · exact ((s.onTake_keeps c _).trans (State.holdOverExpire_keeps _ _)).trans
          (State.boundaryAndPlacement_keeps _ _ _)
      · exact (s.onTake_keeps c _).trans (State.boundaryAndPlacement_keeps _ _ _)
    · exact s.boundaryAndPlacement_keeps b c

theorem State.presenceFall_keeps (c : Port) : Keeps s (s.presenceFall c) := by
  unfold State.presenceFall
  dsimp only
  split
  · exact (s.onPort_keeps c _).trans (State.declareLost_keeps _ _ _)
  · exact Keeps.refl s

theorem State.samplePresence_keeps (b : Bool) (c : Port) : Keeps s (s.samplePresence b c) := by
  unfold State.samplePresence
  dsimp only
  split
  · exact s.onPort_keeps c _
  · split
    · exact s.onPort_keeps c _
    · split
      · exact s.onPort_keeps c _
      · exact (s.onPort_keeps c _).trans (State.presenceFall_keeps _ _)

theorem State.feedFault_keeps (c : Port) : Keeps s (s.feedFault c) := by
  unfold State.feedFault
  dsimp only
  split
  · exact ((((((s.onPort_keeps c _).trans (State.onSync_keeps _ _ _)).trans (State.channelNotice_keeps _ _ _ _)).trans
      (State.closeOpen_keeps _ _ _)).trans (State.takeEnd_keeps _ _ _)).trans (State.onTake_keeps _ _ _)).trans
      (State.retally_keeps _ _)
  · exact ((((s.onPort_keeps c _).trans (State.onSync_keeps _ _ _)).trans (State.channelNotice_keeps _ _ _ _)).trans
      (State.onTake_keeps _ _ _)).trans (State.retally_keeps _ _)

theorem State.corruptOutcome_keeps (c : Port) : Keeps s (s.corruptOutcome c) := by
  unfold State.corruptOutcome
  dsimp only
  split
  · exact (s.onPort_keeps c _).trans (State.feedFault_keeps _ _)
  · exact s.onPort_keeps c _

/-! ### Lane bytes -/

theorem State.acceptFrame_keeps (c : Port) (h : Header) (l : List Byte) : Keeps s (s.acceptFrame c h l) := by
  unfold State.acceptFrame
  dsimp only
  have live : ∀ t : State, Keeps t (if (t.chan c).port.feed = .live then t else t.feedBack c) := by
    intro t
    split
    · exact Keeps.refl t
    · exact t.feedBack_keeps c
  have arrived (f : FeedPort → FeedPort) (r : FrameRecord) :=
    ((s.onPort_keeps c f).trans (live _)).trans (State.frameArrival_keeps _ c r)
  split
  · exact (arrived _ _).trans (State.declareLost_keeps _ _ _)
  · exact arrived _ _

theorem State.judgeHeader_keeps (c : Port) (got : List Byte) : Keeps s (s.judgeHeader c got) := by
  unfold State.judgeHeader
  split
  · exact s.onPort_keeps c _
  · exact (s.onPort_keeps c _).trans (State.corruptOutcome_keeps _ _)

theorem State.judgeFrame_keeps (c : Port) (h : Header) (got : List Byte) : Keeps s (s.judgeFrame c h got) := by
  unfold State.judgeFrame State.goodFrame
  dsimp only
  split
  · split
    · exact (s.onPort_keeps c _).trans (State.acceptFrame_keeps _ _ _ _)
    · exact (s.onPort_keeps c _).trans (State.onPort_keeps _ _ _)
  · exact (s.onPort_keeps c _).trans (State.corruptOutcome_keeps _ _)

theorem State.laneByte_keeps (c : Port) (b : Byte) : Keeps s (s.laneByte c b) := by
  unfold State.laneByte
  dsimp only
  repeat' split
  · exact Keeps.refl s
  · exact s.onPort_keeps c _
  · exact s.onPort_keeps c _
  · exact s.judgeHeader_keeps c _
  · exact s.onPort_keeps c _
  · exact s.judgeFrame_keeps c _ _
  · exact s.onPort_keeps c _

theorem State.hearLane_keeps (c : Port) (x : LaneBytes) : Keeps s (s.hearLane c x) := by
  unfold State.hearLane
  split
  · exact (s.onPort_keeps c _).trans (Keeps.foldl (fun t b => t.laneByte_keeps c b) _ _)
  · exact Keeps.refl s

/-! ### Expiries -/

theorem State.waitingExpiry_keeps (c : Port) : Keeps s (s.waitingExpiry c) := by
  unfold State.waitingExpiry
  dsimp only
  split
  · split
    · exact ((s.onPort_keeps c _).trans (State.onPort_keeps _ _ _)).trans (State.declareLost_keeps _ _ _)
    · exact s.onPort_keeps c _
  · exact Keeps.refl s

theorem State.takeDrain_keeps (i : RecIx) : Keeps s (s.takeDrain i) := by
  unfold State.takeDrain
  split
  · exact s.drainExpiry_keeps i
  · exact Keeps.refl s

theorem State.windowExpiry_keeps (i : RecIx) : Keeps s (s.windowExpiry i) := by
  unfold State.windowExpiry State.decideRecord
  dsimp only
  split
  · split
    · exact (s.onRec_keeps i _).trans (State.joinWriteQueue_keeps _ _)
    · exact (s.onRec_keeps i _).trans (State.onRec_keeps _ _ _)
  · exact Keeps.refl s

theorem State.takeOver_keeps (i : RecIx) : Keeps s (s.takeOver i) := by
  unfold State.takeOver
  exact ((((s.onRec_keeps i _).trans (State.transmit_keeps _ _)).trans (State.onRec_keeps _ _ _)).trans
    (State.joinWriteQueue_keeps _ _)).trans ⟨rfl, rfl, rfl, rfl, rfl⟩

theorem State.commitExpiry_keeps (i : RecIx) : Keeps s (s.commitExpiry i) := by
  unfold State.commitExpiry
  split
  · exact s.takeOver_keeps i
  · exact Keeps.refl s

theorem State.storeExpiry_keeps (k : TagIx) : Keeps s (s.storeExpiry k) := by
  unfold State.storeExpiry
  split
  · split
    · exact (s.setTag_keeps k _).trans (State.ackFault_keeps _ _)
    · exact Keeps.refl s
  · exact Keeps.refl s
  · exact Keeps.refl s

theorem State.clearExpiry_keeps : Keeps s s.clearExpiry := by
  unfold State.clearExpiry
  split <;> exact ⟨rfl, rfl, rfl, rfl, rfl⟩

/-- One part of a house tick. -/
theorem State.tickPart_keeps (t : TickInput) (b : Bool) (part : TickPart) : Keeps s (s.tickPart t b part) := by
  cases part with
  | presence c => exact s.samplePresence_keeps _ c
  | placement c => exact s.takeTick_keeps b c
  | tally c => exact s.tallyStep_keeps c
  | waiting c => exact s.waitingExpiry_keeps c
  | lane c b => exact s.hearLane_keeps c _
  | drain i => exact s.takeDrain_keeps i
  | window i => exact s.windowExpiry_keeps i
  | commit i => exact s.commitExpiry_keeps i
  | store k => exact s.storeExpiry_keeps k
  | clear => exact s.clearExpiry_keeps

/-- A house tick changes the Reference Unit only by the advance of the count (R9), and leaves the Status block, the
STORE-HALT level, what was sent on the cue line and the waiting commands as they were. -/
theorem State.houseTick_keeps (t : TickInput) : Keeps { s with ref := s.ref.advance } (State.houseTick t s) := by
  unfold State.houseTick
  dsimp only
  refine Keeps.trans (t := State.tickTimers { s with ref := s.ref.advance }) ⟨rfl, rfl, rfl, rfl, rfl⟩ ?_
  exact Keeps.foldl (fun s a => s.tickPart_keeps t _ a) _ _

end Sys2Proof.Machine
end

