-- ==== Sys2Proof/Laws/Line.lean ====
section
/-! SUPPORT. The count toward idle after a frame does not depend on where its bits are cut: recessive bits given with the frame
count as those that come after it. -/

namespace Sys2Proof.Machine

theorem trailingRecessive_append (bits : List Bool) (n : Nat) :
    trailingRecessive (bits ++ List.replicate n true) = trailingRecessive bits + n := by
  induction n with
  | zero => simp
  | succ n ih =>
    have h := ih
    simp only [trailingRecessive, List.reverse_append, List.reverse_replicate] at h ⊢
    simp only [List.replicate_succ, List.cons_append, List.takeWhile_cons, id, if_true, List.length_cons, h]
    omega

/-- Bits that follow leave a frame that has gone through to its end field as it is, and follow what followed it. -/
theorem destuff_append (bits more : List Bool) (level : Bool) (run need : Nat) (inHead : Bool) (got : List Bool)
    (data tail : List Bool) (h : destuff bits level run need inHead got = some (data, tail)) :
    destuff (bits ++ more) level run need inHead got = some (data, tail ++ more) := by
  induction bits generalizing level run need inHead got with
  | nil =>
    match need, inHead with
    | 0, false =>
      simp only [destuff] at h ⊢
      split at h
      · cases h
      · rename_i hr
        cases h
        cases more <;> simp [destuff, hr]
    | 0, true => cases h
    | _ + 1, _ => cases h
  | cons b rest ih =>
    match need, inHead with
    | 0, false =>
      simp only [destuff, List.cons_append] at h ⊢
      split_ifs at h ⊢ <;> cases h <;> rfl
    | 0, true => cases h
    | need' + 1, _ =>
      simp only [destuff, List.cons_append] at h ⊢
      split_ifs at h ⊢ <;> exact ih _ _ _ _ _ h

/-- What follows a frame ends the bits it was read from. -/
theorem destuff_suffix (bits : List Bool) (level : Bool) (run need : Nat) (inHead : Bool) (got : List Bool)
    (data tail : List Bool) (h : destuff bits level run need inHead got = some (data, tail)) : tail <:+ bits := by
  induction bits generalizing level run need inHead got with
  | nil =>
    match need, inHead with
    | 0, false =>
      simp only [destuff] at h
      split at h <;> cases h
      exact List.suffix_refl _
    | 0, true => cases h
    | _ + 1, _ => cases h
  | cons b rest ih =>
    match need, inHead with
    | 0, false =>
      simp only [destuff] at h
      split_ifs at h <;> cases h
      · exact List.suffix_cons _ _
      · exact List.suffix_refl _
    | 0, true => cases h
    | need' + 1, _ =>
      simp only [destuff] at h
      split_ifs at h <;> exact (ih _ _ _ _ _ h).trans (List.suffix_cons _ _)

/-- What follows a frame whose bits reach its end is what was given of it, then the recessive bits that stand for the line. -/
theorem frameParts_tail (bits data tail : List Bool) (h : frameParts bits = some (data, tail)) (hl : linePad ≤ tail.length) :
    tail = tail.take (tail.length - linePad) ++ List.replicate linePad true := by
  match bits, h with
  | false :: rest, h =>
    obtain ⟨front, e⟩ := destuff_suffix _ _ _ _ _ _ data tail h
    have p : List.replicate linePad true <:+ tail :=
      List.suffix_of_suffix_length_le (List.suffix_append _ _) ⟨front, e⟩ (by simpa using hl)
    obtain ⟨given, rfl⟩ := p
    simp

/-- Recessive bits alone: eight or more of them settle a frame as one more does. -/
theorem destuff_recessive (n : Nat) (run need : Nat) (inHead : Bool) (got : List Bool) (hr : run ≤ 6) (hn : 8 ≤ n + run)
    (h : destuff (List.replicate n true) true run need inHead got = none) :
    destuff (List.replicate (n + 1) true) true run need inHead got = none := by
  induction n generalizing run need inHead got with
  | zero => omega
  | succ n ih =>
    rw [List.replicate_succ] at h ⊢
    match need, inHead with
    | 0, false =>
      simp only [destuff] at h ⊢
      split_ifs at h ⊢; rfl
    | 0, true => rfl
    | need' + 1, _ =>
      simp only [destuff] at h ⊢
      split_ifs at h ⊢ <;> first | rfl | exact ih _ _ _ _ (by omega) (by omega) h

/-- The same after a dominant bit. -/
theorem destuff_dominant (n : Nat) (run need : Nat) (inHead : Bool) (got : List Bool) (hr : run ≤ 6) (hn : 8 ≤ n)
    (h : destuff (List.replicate n true) false run need inHead got = none) :
    destuff (List.replicate (n + 1) true) false run need inHead got = none := by
  cases n with
  | zero => omega
  | succ n =>
    rw [List.replicate_succ] at h ⊢
    match need, inHead with
    | 0, false =>
      simp only [destuff] at h ⊢
      split_ifs at h ⊢; rfl
    | 0, true => rfl
    | need' + 1, _ =>
      simp only [destuff] at h ⊢
      split_ifs at h ⊢ <;> first | rfl | exact destuff_recessive _ _ _ _ _ (by omega) (by omega) h

/-- Eight or more recessive bits after the bits given settle a frame as one more does. -/
theorem destuff_pad (bits : List Bool) (n : Nat) (level : Bool) (run need : Nat) (inHead : Bool) (got : List Bool)
    (hr : run ≤ 6) (hn : 8 ≤ n) (h : destuff (bits ++ List.replicate n true) level run need inHead got = none) :
    destuff (bits ++ List.replicate (n + 1) true) level run need inHead got = none := by
  induction bits generalizing level run need inHead got with
  | nil =>
    cases level
    · exact destuff_dominant n run need inHead got hr hn h
    · exact destuff_recessive n run need inHead got hr (by omega) h
  | cons b rest ih =>
    match need, inHead with
    | 0, false =>
      simp only [destuff, List.cons_append] at h ⊢
      split_ifs at h ⊢; rfl
    | 0, true => rfl
    | need' + 1, _ =>
      simp only [destuff, List.cons_append] at h ⊢
      split_ifs at h ⊢ <;> first | rfl | exact ih _ _ _ _ _ (by omega) h

/-- Recessive bits after a frame change nothing of it but what follows it. -/
theorem frameParts_append (bits : List Bool) (n : Nat) (hb : bits ≠ []) :
    frameParts (bits ++ List.replicate n true) =
      (frameParts bits).map fun x => (x.1, x.2 ++ List.replicate n true) := by
  match bits, hb with
  | true :: _, _ => rfl
  | false :: rest, _ =>
    simp only [frameParts, List.cons_append, List.append_assoc, List.replicate_append_replicate]
    cases h : destuff (rest ++ List.replicate linePad true) false 1 headBits true [] with
    | some x =>
      have e := destuff_append _ (List.replicate n true) _ _ _ _ _ x.1 x.2 h
      rw [List.append_assoc, List.replicate_append_replicate, Nat.add_comm] at e
      simp [e]
    | none =>
      have e : ∀ k, destuff (rest ++ List.replicate (linePad + k) true) false 1 headBits true [] = none := by
        intro k
        induction k with
        | zero => exact h
        | succ k ih => exact destuff_pad rest _ _ _ _ _ _ (by omega) (by simp [linePad]; omega) ih
      rw [Nat.add_comm, e]
      rfl

/-- Recessive bits given with a frame that has reached its end count as those that come after it. -/
theorem countAfter_append (bits : List Bool) (n : Nat) (hb : bits ≠ []) (hr : frameReached bits = true) :
    countAfter (bits ++ List.replicate n true) = countAfter bits + n := by
  unfold countAfter
  rw [frameParts_append bits n hb]
  unfold frameReached at hr
  cases h : frameParts bits with
  | none => exact trailingRecessive_append bits n
  | some x =>
    rw [h] at hr
    have hl : linePad ≤ x.2.length := by
      have := of_decide_eq_true hr
      omega
    simp only [Option.map_some]
    have e : (x.2 ++ List.replicate n true).take ((x.2 ++ List.replicate n true).length - linePad) =
        x.2.take (x.2.length - linePad) ++ List.replicate n true := by
      have t := frameParts_tail bits x.1 x.2 h hl
      generalize x.2.take (x.2.length - linePad) = front at t ⊢
      rw [t, List.append_assoc, List.replicate_append_replicate]
      have k : (front ++ List.replicate (linePad + n) true).length - linePad = front.length + n := by
        simp; omega
      rw [k, List.take_append, List.take_of_length_le (by omega), Nat.add_sub_cancel_left, List.take_replicate]
      congr 2
      omega
    rw [e, trailingRecessive_append]

end Sys2Proof.Machine
end

