-- ==== Sys2Proof/Laws/MemFrame.lean ====
section
/-! SUPPORT. The operations that leave staging memory as it is: all but the packing of a frame and of a coded frame. -/

namespace Sys2Proof.Machine

variable (s : State)

@[simp] theorem State.retally_mem (c : Port) : (s.retally c).mem = s.mem := by
  unfold State.retally
  dsimp only
  split <;> rfl

@[simp] theorem State.evict_mem (i : RecIx) : (s.evict i).mem = s.mem := by simp [State.evict]

@[simp] theorem State.lowMarkTest_mem (fuel : Nat) : (s.lowMarkTest fuel).mem = s.mem := by
  induction fuel generalizing s with
  | zero => rfl
  | succ n ih =>
    unfold State.lowMarkTest
    split
    · split
      · rw [ih, s.evict_mem]
      · rfl
    · rfl

theorem State.takePage_mem (i : RecIx) (l : PageList) (t : State) (h : s.takePage i l = some t) : t.mem = s.mem := by
  unfold State.takePage at h
  split at h
  · cases h
  · cases h
    simp

theorem State.takePages_mem (i : RecIx) (l : PageList) (n : Nat) : (s.takePages i l n).1.mem = s.mem := by
  induction n generalizing s with
  | zero => rfl
  | succ n ih =>
    unfold State.takePages
    split
    · rfl
    · rename_i t h
      rw [ih, s.takePage_mem i l t h]

@[simp] theorem State.requestPages_mem (i : RecIx) (l : PageList) (n : Nat) : (s.requestPages i l n).1.mem = s.mem := by
  unfold State.requestPages
  dsimp only
  split
  · rfl
  · have h := s.takePages_mem i l n
    split
    · rename_i t e; rw [e] at h; exact h
    · rename_i t e; rw [e] at h; exact h

@[simp] theorem State.issueUpTo_mem (fuel : Nat) : (s.issueUpTo fuel).mem = s.mem := by
  induction fuel generalizing s with
  | zero => rfl
  | succ n ih =>
    unfold State.issueUpTo
    split
    · split
      · rw [ih]; rfl
      · rfl
    · rfl

@[simp] theorem State.issue_mem : s.issue.mem = s.mem := by
  unfold State.issue
  split <;> simp

@[simp] theorem State.joinWriteQueue_mem (i : RecIx) : (s.joinWriteQueue i).mem = s.mem := by
  simp [State.joinWriteQueue]

@[simp] theorem State.leaveWriteQueue_mem (i : RecIx) : (s.leaveWriteQueue i).mem = s.mem := rfl

@[simp] theorem State.settleFailed_mem (i : RecIx) : (s.settleFailed i).mem = s.mem := by
  unfold State.settleFailed
  split <;> rfl

@[simp] theorem State.failRecord_mem (i : RecIx) : (s.failRecord i).mem = s.mem := by simp [State.failRecord]

@[simp] theorem State.haltStore_mem (r : Byte) : (s.haltStore r).mem = s.mem := by
  unfold State.haltStore
  split <;> simp

@[simp] theorem State.countStray_mem : s.countStray.mem = s.mem := rfl

@[simp] theorem State.ackStatus_mem (b : Byte) (i : RecIx) (ref : PageRef) : (s.ackStatus b i ref).mem = s.mem := by
  unfold State.ackStatus State.ackOk State.ackFull State.ackFault
  dsimp only
  split
  · split
    · simp
    · split <;> rfl
  · split
    · split <;> simp
    · split <;> simp

@[simp] theorem State.countOpen_mem (c : Port) (f : Counts → Counts) : (s.countOpen c f).mem = s.mem := by
  unfold State.countOpen
  split <;> rfl

@[simp] theorem State.closeComplete_mem (i : RecIx) : (s.closeComplete i).mem = s.mem := by
  unfold State.closeComplete
  dsimp only
  split
  · rfl
  · split
    · rfl
    · simp

@[simp] theorem State.closeRecord_mem (torn : Bool) (i : RecIx) : (s.closeRecord torn i).mem = s.mem := by
  unfold State.closeRecord
  dsimp only
  split
  · simp
  · rfl

@[simp] theorem State.closeOpen_mem (torn : Bool) (c : Port) : (s.closeOpen torn c).mem = s.mem := by
  unfold State.closeOpen
  split
  · simp
  · rfl

@[simp] theorem State.drainExpiry_mem (i : RecIx) : (s.drainExpiry i).mem = s.mem := by
  simp [State.drainExpiry, State.withdraw]

@[simp] theorem State.frameArrival_mem (c : Port) (f : FrameRecord) : (s.frameArrival c f).mem = s.mem := by
  simp [State.frameArrival]

@[simp] theorem State.syncLoss_mem (c : Port) : (s.syncLoss c).mem = s.mem := by simp [State.syncLoss]

@[simp] theorem State.declareLost_mem (c : Port) (r : LossReason) : (s.declareLost c r).mem = s.mem := by
  unfold State.declareLost
  split <;> simp

@[simp] theorem State.feedBack_mem (c : Port) : (s.feedBack c).mem = s.mem := by
  unfold State.feedBack
  dsimp only
  split <;> simp

@[simp] theorem State.feedFault_mem (c : Port) : (s.feedFault c).mem = s.mem := by
  unfold State.feedFault
  dsimp only
  split <;> simp [State.takeEnd]

@[simp] theorem State.corruptOutcome_mem (c : Port) : (s.corruptOutcome c).mem = s.mem := by
  unfold State.corruptOutcome
  dsimp only
  split <;> simp

@[simp] theorem State.judgeHeader_mem (c : Port) (got : List Byte) : (s.judgeHeader c got).mem = s.mem := by
  unfold State.judgeHeader
  split <;> simp

@[simp] theorem State.acceptFrame_mem (c : Port) (h : Header) (p : List Byte) : (s.acceptFrame c h p).mem = s.mem := by
  unfold State.acceptFrame
  dsimp only
  split <;> split <;> simp

@[simp] theorem State.judgeFrame_mem (c : Port) (h : Header) (got : List Byte) : (s.judgeFrame c h got).mem = s.mem := by
  unfold State.judgeFrame State.goodFrame
  dsimp only
  split
  · split <;> simp
  · simp

@[simp] theorem State.laneByte_mem (c : Port) (b : Byte) : (s.laneByte c b).mem = s.mem := by
  unfold State.laneByte
  dsimp only
  repeat' split
  all_goals simp

@[simp] theorem State.laneBytes_mem (c : Port) (bytes : List Byte) : (s.laneBytes c bytes).mem = s.mem := by
  unfold State.laneBytes
  induction bytes generalizing s with
  | nil => rfl
  | cons b l ih => rw [List.foldl_cons, ih, s.laneByte_mem]

@[simp] theorem State.hearLane_mem (c : Port) (x : LaneBytes) : (s.hearLane c x).mem = s.mem := by
  unfold State.hearLane
  split <;> simp

@[simp] theorem State.holdOverExpire_mem (c : Port) : (s.holdOverExpire c).mem = s.mem := by
  simp [State.holdOverExpire, State.takeEnd]

end Sys2Proof.Machine
end

