-- ==== Sys2Proof/Laws/Memory.lean ====
section
/-! SUPPORT. Staging memory: reading after a write, and the canonical form kept by every memory operation. -/

namespace Sys2Proof.Machine

/-- A lower bound of the addresses of a memory that is in canonical form. -/
def Memory.above (lo : Nat) (m : Memory) : Prop :=
  match m with
  | [] => True
  | (x, b) :: rest => lo ≤ x ∧ b ≠ unlistedByte ∧ Memory.above (x + 1) rest

theorem Memory.above_mono {lo hi : Nat} (h : lo ≤ hi) {m : Memory} (k : Memory.above hi m) : Memory.above lo m := by
  cases m with
  | nil => trivial
  | cons c rest => exact ⟨h.trans k.1, k.2⟩

/-- The canonical form is the same as every address lying above the one before. -/
theorem Memory.wf_cons (x : Nat) (b : Byte) (m : Memory) :
    Memory.wf ((x, b) :: m) = true ↔ b ≠ unlistedByte ∧ Memory.above (x + 1) m := by
  induction m generalizing x b with
  | nil => simp [Memory.wf, Memory.above]
  | cons c rest ih =>
    obtain ⟨y, d⟩ := c
    simp only [Memory.wf, Bool.and_eq_true, decide_eq_true_eq, bne_iff_ne, ih, Memory.above]
    constructor
    · rintro ⟨⟨h1, h2⟩, h3, h4⟩; exact ⟨h2, h1, h3, h4⟩
    · rintro ⟨h2, h1, h3, h4⟩; exact ⟨⟨h1, h2⟩, h3, h4⟩

theorem Memory.wf_iff (m : Memory) : Memory.wf m = true ↔ Memory.above 0 m := by
  cases m with
  | nil => simp [Memory.wf, Memory.above]
  | cons c rest =>
    obtain ⟨x, b⟩ := c
    rw [Memory.wf_cons]
    simp [Memory.above]

theorem Memory.write_above (lo : Nat) (m : Memory) (a : Nat) (b : Byte) (h : Memory.above lo m) (ha : lo ≤ a) :
    Memory.above lo (Memory.write m a b) := by
  induction m generalizing lo with
  | nil =>
    unfold Memory.write
    split
    · trivial
    · rename_i hb; exact ⟨ha, hb, trivial⟩
  | cons c rest ih =>
    obtain ⟨x, y⟩ := c
    obtain ⟨h1, h2, h3⟩ := h
    unfold Memory.write
    split
    · rename_i hax
      split
      · exact ⟨h1, h2, h3⟩
      · rename_i hb
        exact ⟨ha, hb, hax, h2, h3⟩
    · split
      · rename_i hax
        split
        · exact Memory.above_mono (h1.trans (Nat.le_succ x)) h3
        · rename_i hb
          refine ⟨ha, hb, ?_⟩
          rw [hax]; exact h3
      · rename_i h4 h5
        exact ⟨h1, h2, ih (x + 1) h3 (by omega)⟩

/-- Writing a byte keeps the canonical form. -/
theorem Memory.write_wf (m : Memory) (a : Nat) (b : Byte) (h : m.wf = true) : (m.write a b).wf = true :=
  (Memory.wf_iff _).2 (Memory.write_above 0 m a b ((Memory.wf_iff m).1 h) (Nat.zero_le a))

/-- Writing bytes into a page list keeps the canonical form. -/
theorem Memory.writeStream_wf (pages : List Nat) (x : Nat) (bytes : List Byte) (m : Memory) (h : m.wf = true) :
    (m.writeStream pages x bytes).wf = true := by
  induction bytes generalizing x m with
  | nil => exact h
  | cons b rest ih =>
    unfold Memory.writeStream
    exact ih (x + 1) _ (Memory.write_wf m _ b h)

theorem Memory.read_above (lo : Nat) (m : Memory) (h : Memory.above lo m) (a : Nat) (ha : a < lo) :
    m.read a = unlistedByte := by
  induction m generalizing lo with
  | nil => rfl
  | cons c rest ih =>
    obtain ⟨x, y⟩ := c
    obtain ⟨h1, _, h3⟩ := h
    unfold Memory.read
    rw [if_neg (by omega)]
    exact ih (x + 1) h3 (by omega)

theorem Memory.read_write_above (lo : Nat) (m : Memory) (h : Memory.above lo m) (a c : Nat) (b : Byte) :
    (m.write a b).read c = if c = a then b else m.read c := by
  induction m generalizing lo with
  | nil =>
    unfold Memory.write
    split
    · rename_i hb; rw [hb]; split <;> rfl
    · simp only [Memory.read]
  | cons e rest ih =>
    obtain ⟨x, y⟩ := e
    obtain ⟨_, _, h3⟩ := h
    unfold Memory.write
    split
    · rename_i hax
      split
      · rename_i hb
        split
        · rename_i hc
          rw [hc, hb]
          have hna : a ≠ x := by omega
          simp only [Memory.read, if_neg hna]
          exact Memory.read_above _ _ h3 a (by omega)
        · rfl
      · simp only [Memory.read]
    · split
      · rename_i hax
        split
        · rename_i hb
          split
          · rename_i hc
            rw [hc, hb, hax]
            exact Memory.read_above _ _ h3 x (by omega)
          · rename_i hc
            have hcx : c ≠ x := by omega
            simp only [Memory.read, if_neg hcx]
        · simp only [Memory.read, hax]
          split <;> rfl
      · rename_i h4 h5
        simp only [Memory.read, ih _ h3]
        split
        · rename_i hc
          rw [if_neg (by omega)]
        · rfl

/-- Reading after writing one byte of a memory in canonical form. -/
theorem Memory.read_write (m : Memory) (h : m.wf = true) (a c : Nat) (b : Byte) :
    (m.write a b).read c = if c = a then b else m.read c :=
  Memory.read_write_above 0 m ((Memory.wf_iff m).1 h) a c b

/-- The memory of the reset state is in canonical form. -/
theorem State.reset_mem_wf : State.reset.mem.wf = true := rfl

end Sys2Proof.Machine
end

