-- ==== Sys2Proof/Tests/Slice0.lean ====
section
/-! SUPPORT. Tests: ill-formed commands that the checks refuse, check values and small sequences worked out in spec/, and for
every statement with hypotheses a concrete state and operands that meet them (`witness_…`). -/

namespace Sys2Proof.Tests

-- Each theorem is checked before the next is read: many kernel evaluations at once would need more memory.
set_option Elab.async false

open Sys2Proof.Machine

/-! ### States and operands the tests are made of -/

/-- An engine of station 5 that runs on the built-in defaults. -/
def up : State :=
  { State.reset with
    status := { State.reset.status with phase := .running, station := some 5#5, source := some .defaulted }
    cue := { State.reset.cue with enabled := true } }

/-- `up` with channel 0 changed. -/
def withChan (f : Channel → Channel) : State := up.setChan 0 (f (up.chan 0))

/-- `up` with segment record 0 changed. -/
def withRec (f : Record → Record) : State := up.onRec 0 f

/-- `up` with the Reference Unit changed. -/
def withRef (f : RefUnit → RefUnit) : State := { up with ref := f up.ref }

/-- `up` with the store link changed. -/
def withLink (f : StoreLink → StoreLink) : State := { up with link := f up.link }

/-- `up` with the Cue Line Interface changed. -/
def withCue (f : CueLine → CueLine) : State := { up with cue := f up.cue }

/-- The state a step answers. -/
def after (o : Host.Outcome State Fault Refusal) : State :=
  match o with
  | .next t => t
  | _ => up

/-- A tick with no carrier on any lane and its parts in the order they have where none is named. -/
def quiet : TickInput := { presence := 0#4, order := [] }

/-- A message of station 9 to this station. -/
def toStation (payload : List Byte) : Heard := { sender := 9#5, target := .station 5#16, payload := payload }

/-- A message of station 9 to feed 1400H. -/
def toFeed (payload : List Byte) : Heard := { sender := 9#5, target := .feed 0x1400#16, payload := payload }

/-- A message of station 9 to ALL. -/
def toAll (payload : List Byte) : Heard := { sender := 9#5, target := .all, payload := payload }

/-- Channel 0 holds feed 1400H with its port OPEN, its receiver at `rx`, and its feed LIVE. -/
def receiving (rx : Receiver) (bad : Nat) : State :=
  withChan fun x =>
    { x with
      port := { x.port with opened := true, feedId := some 0x1400#16, rx := rx, feed := .live, consecBad := bad }
      take := { x.take with st := .recording } }

/-- Channel 0 in a state, with feed 1400H and a cue buffer. -/
def inState (st : ChannelState) (buffer : Option Cue) : State :=
  withChan fun x =>
    { x with port := { x.port with feedId := some 0x1400#16 }, take := { x.take with st := st, buffer := buffer } }

/-- An open cue of clip 7. -/
def cue7 : Cue := { clip := 7#32, length := 0, tie := false, pause := false }

/-- The 12 bytes of a key with feed 1400H and zeros. -/
def keyBytes0 : List Byte := [0x14#8, 0x00#8] ++ List.replicate 10 0x00#8

/-- The key that `keyBytes0` spells. -/
def key0 : Key := { feed := 0x1400#16, clip := 0#32, seg := 0#16, first := 0#32 }

/-- Segment record 0 in a state under `key0`, twin mode as given, with channel 0 RECORDING feed 1400H. -/
def inUse (st : RecState) (twin : Bool) : State :=
  (receiving (.hunt []) 0).onRec 0 fun r => { r with st := st, key := key0, twin := twin }

/-- A good header of feed 1400H: sequence 7, timecode 1 2 3 4, length 1, KEY and END. -/
def goodHeader : List Byte :=
  [0x14#8, 0x00#8, 0x00#8, 0x07#8, 0x01#8, 0x02#8, 0x03#8, 0x04#8, 0x00#8, 0x00#8, 0x01#8, 0x03#8, 0x00#8, 0x00#8,
    0x34#8, 0xF0#8]

/-- A header with a payload length, no flags and a check. -/
def headerOfLength (l2 l1 l0 c1 c0 : Byte) : List Byte :=
  [0x14#8, 0x00#8, 0x00#8, 0x07#8, 0x01#8, 0x02#8, 0x03#8, 0x04#8, l2, l1, l0, 0x00#8, 0x00#8, 0x00#8, c1, c0]

/-- What `goodHeader` says. -/
def header7 : Header :=
  { feedId := 0x1400#16, seq := 7#16, timecode := { hours := 1#8, minutes := 2#8, seconds := 3#8, frames := 4#8 },
    length := 1, key := true, ends := true }

/-- The payload of one byte 00H with its check. -/
def payload0 : List Byte := [0x00#8, 0xD2#8, 0x02#8, 0xEF#8, 0x8D#8]

/-- A configuration image of 33 bytes: the built-in defaults. -/
def image33 : List Byte :=
  [33#8, 0#8, 100#8, 4#8, 2#8, 1#8, 5#8, 0#8, 50#8, 0#8, 0x01#8, 0x27#8, 0x10#8, 0#8, 0#8, 0xEA#8, 0x60#8, 4#8, 28#8] ++
    [10#8, 8#8, 0#8, 100#8, 25#8, 4#8, 0#8, 2#8, 0#8, 108#8, 0x0F#8, 0xFF#8, 0x36#8, 0xEA#8]

/-- The same fields with a length byte of 32. -/
def image32 : List Byte := 32#8 :: ((image33.take 30).drop 1 ++ [0x56#8, 0x9C#8])

/-- A frame whose check does not match and ends in five recessive bits. -/
def badFrame : List Bool :=
  false :: (stuff ((frameFields 1 9#5 0x17#8 .all [] ++ [0xFF#8, 0x1F#8]).flatMap byteBits) false 1 ++
    List.replicate 8 true)

/-! ### Ill-formed commands are refused -/

theorem test_wf_payload : Instr.wellFormed (.arm (toAll (List.replicate 33 0#8))) = false ∧
    Instr.wellFormed (.arm (toAll (List.replicate 32 0#8))) = true := by decide
theorem test_wf_payload_each : ∀ m ∈ [toAll (List.replicate 33 0#8)],
    [Instr.preset m, .disarm m, .cue m, .stop m, .cut m, .resetChannel m, .resumeStore m, .resetStore m, .query m,
      .reportHeard m, .storedHeard { heard := m, together := true }, .unstoredHeard m, .takeoverHeard m, .unknownKind 0x40#8 m].all
        (fun i => !i.wellFormed) = true := by decide
theorem test_wf_order : Instr.wellFormed (.referencePulse 0 { quiet with order := [.tally 1, .tally 1] }) = false ∧
    Instr.wellFormed (.lossDeadlineExpiry 0 { quiet with order := [.clear, .waiting 0, .clear] }) = false ∧
    Instr.wellFormed (.flywheelTick 0 { quiet with order := [.lane 3 7#8, .lane 3 7#8] }) = false ∧
    Instr.wellFormed (.referencePulse 0 { quiet with order := [.tally 1, .placement 1, .commit 1] }) = true := by decide
theorem test_wf_image : Instr.wellFormed (.configurationReadComplete []) = false ∧
    Instr.wellFormed (.configurationReadComplete (List.replicate 256 0#8)) = false := by decide +kernel
theorem test_wf_header : Instr.wellFormed (.headerJudged 0 { bytes := [], together := false }) = false ∧
    Instr.wellFormed (.headerJudged 0 { bytes := List.replicate 17 0#8, together := false }) = false := by decide
theorem test_wf_frame : Instr.wellFormed (.frameComplete 0 { bytes := [], together := false }) = false ∧
    Instr.wellFormed (.frameComplete 0 { bytes := List.replicate 1048581 0#8, together := false }) = false := by
  constructor
  · decide
  · have h : (List.replicate 1048581 (0#8 : Byte)).length = 1048581 := List.length_replicate
    generalize List.replicate 1048581 (0#8 : Byte) = l at h ⊢
    simp [Instr.wellFormed, h]
theorem test_wf_coded : Instr.wellFormed (.coderCompletion (List.replicate 63 0#8)) = false ∧
    Instr.wellFormed (.coderCompletion (List.replicate 262145 0#8)) = false := by
  constructor
  · decide
  · have h : (List.replicate 262145 (0#8 : Byte)).length = 262145 := List.length_replicate
    generalize List.replicate 262145 (0#8 : Byte) = l at h ⊢
    simp [Instr.wellFormed, h]
theorem test_wf_other_type : Instr.wellFormed (.storeLinkOtherType 0x02#8) = false ∧
    Instr.wellFormed (.storeLinkOtherType 0x04#8) = false ∧ Instr.wellFormed (.storeLinkOtherType 0x03#8) = true := by
  decide
theorem test_wf_line_frame : Instr.wellFormed (.cueLineFrame 11 []) = false ∧
    Instr.wellFormed (.cueLineFrame 11 [true]) = false := by decide
theorem test_wf_known_kind : Instr.wellFormed (.unknownKind 0x10#8 (toAll [])) = false ∧
    Instr.wellFormed (.unknownKind 0x33#8 (toAll [])) = false ∧
    Instr.wellFormed (.unknownKind 0x1A#8 (toAll [])) = true := by decide
theorem test_wf_marker : Instr.wellFormed (.syncMarkerFound 0 syncMarker) = true ∧
    Instr.wellFormed (.syncMarkerFound 0 [0x72#8]) = false := by decide

/-! ### Words, checks and formats -/

/-- A frame that is received is settled at its last end bit, one whose check fails at the last bit of its check (R164). -/
theorem test_frame_reached :
    let good := frameBits (frameFields 1 9#5 0x17#8 .all [])
    frameReached good = true ∧ frameReached good.dropLast = false ∧
      frameReached (badFrame.take (badFrame.length - 8)) = true ∧
      frameReached (badFrame.take (badFrame.length - 9)) = false ∧ frameReached [false] = true := by decide +kernel

theorem test_no_word_spells_a_command (nbits w : Nat) : decodeTableWord nbits w = none := rfl
/-- The two checks of R184 over 31H to 39H. -/
theorem test_crc32 : crc32 [0x31#8, 0x32#8, 0x33#8, 0x34#8, 0x35#8, 0x36#8, 0x37#8, 0x38#8, 0x39#8] = 0xCBF43926 := by
  decide +kernel
theorem test_crc16 : crc16 [0x31#8, 0x32#8, 0x33#8, 0x34#8, 0x35#8, 0x36#8, 0x37#8, 0x38#8, 0x39#8] = 0x29B1 := by
  decide +kernel
theorem test_header : headerGood goodHeader = true ∧ parseHeader goodHeader = header7 := by decide +kernel
/-- Payload lengths 1 and 1,048,576 are good; 0 and 1,048,577 are not (R17). -/
theorem test_header_lengths : headerGood (headerOfLength 0x00#8 0x00#8 0x01#8 0x6D#8 0xA0#8) = true ∧
    headerGood (headerOfLength 0x10#8 0x00#8 0x00#8 0x01#8 0x90#8) = true ∧
    headerGood (headerOfLength 0x00#8 0x00#8 0x00#8 0x1B#8 0x14#8) = false ∧
    headerGood (headerOfLength 0x10#8 0x00#8 0x01#8 0x77#8 0x24#8) = false := by decide +kernel
/-- The image that spells the built-in defaults gives them (R172, section 11.6). -/
theorem test_image : parseImage image33 = builtInConfiguration := by decide +kernel
/-- A field at 0 or at all ones is brought into its range (R173). -/
theorem test_image_clamped :
    ((parseImage (33#8 :: List.replicate 32 0xFF#8)).params.segLen, (parseImage (33#8 :: List.replicate 32 0xFF#8)).cw,
      (parseImage (33#8 :: List.replicate 32 0#8)).divisor, (parseImage (33#8 :: List.replicate 32 0#8)).spatial) =
        (1024, 1000, 27, .quarter) := by decide +kernel
/-- A frame of an empty payload and one of 32 zero bytes come back whole (R157, R158, R164). -/
theorem test_frames : receiveFrame (frameBits (frameFields 1 5#5 0x17#8 .all [])) =
      some { kind := 0x17#8, heard := { sender := 5#5, target := .all, payload := [] } } ∧
    receiveFrame (frameBits (frameFields 0 0#5 0x00#8 (.feed 0#16) (List.replicate 32 0x00#8))) =
      some
        { kind := 0x00#8, heard := { sender := 0#5, target := .feed 0#16, payload := List.replicate 32 0x00#8 } } := by
  decide +kernel
/-- Seven equal bits inside the stuffed fields are a fault (R164). -/
theorem test_frame_fault : receiveFrame (List.replicate 7 false ++ List.replicate 200 true) = none ∧
    receiveFrame (List.replicate 6 false ++ List.replicate 200 true) = none := by decide +kernel
/-- The fixed part of an index record is 54 bytes (section 11.5). -/
theorem test_index_length : (indexRecord 5#5 Record.cleared).length = 54 := by decide +kernel

/-! ### Sequences worked out in spec/ -/

/-- A frame by its sequence number. -/
def frameNo (n : Nat) : FrameRecord :=
  { seq := BitVec.ofNat 16 n, timecode := { hours := 0#8, minutes := 0#8, seconds := 0#8, frames := 0#8 }, key := false,
    payload := [] }

/-- A synchroniser with w = 4, p = 2, g = 1 (the sequences of chapter 3). -/
def sync421 (st : SyncState) (e : Nat) (win : List Nat) : Synchroniser :=
  { st := st, e := BitVec.ofNat 16 e, window := win.map frameNo, w := 4, p := 2, g := 1, h := 0, repeatMark := true,
    late := 0, duplicate := 0, discontinuities := 0 }

/-- An arrival's sequence number, or a tick. -/
inductive Happens where
  | arrive (n : Nat)
  | tick
  deriving DecidableEq, Repr

/-- What each event of a short sequence leaves: E, h, the window, the placement of a tick, drops and skips. -/
def trace (l : List Happens) (y : Synchroniser) : List (Nat × Nat × List Nat × Option PlacementKind × Nat) :=
  match l with
  | [] => []
  | .arrive n :: rest =>
    let a := y.arrive (frameNo n)
    (a.sync.e.toNat, a.sync.h, a.sync.window.map (fun f => f.seq.toNat), none, a.skipped) :: trace rest a.sync
  | .tick :: rest =>
    let r := y.release
    let kind : PlacementKind := match r.placement with
      | .present _ => .present
      | .repeated => .repeated
      | .fill => .fill
    (r.sync.e.toNat, r.sync.h, r.sync.window.map (fun f => f.seq.toNat), some kind, r.drops) :: trace rest r.sync

/-- Ticks t1 to t5 of the first sequence of chapter 3. -/
theorem test_gaps : trace [.tick, .arrive 103, .tick, .tick, .arrive 104, .tick, .arrive 102, .arrive 105, .tick]
      (sync421 .running 100 [100, 101]) =
    [(101, 0, [101], some .present, 0), (101, 0, [101, 103], none, 0), (102, 0, [103], some .present, 0),
      (102, 1, [103], some .repeated, 0), (102, 1, [103, 104], none, 0), (103, 0, [103, 104], some .fill, 0),
      (103, 0, [103, 104], none, 0), (103, 0, [103, 104, 105], none, 0), (104, 0, [104, 105], some .present, 0)] := by
  decide +kernel

/-- Ticks t6 to t8 of the same sequence: a drop and an advance. -/
theorem test_drop_and_advance : trace [.arrive 106, .arrive 107, .tick, .arrive 112, .tick, .tick]
      (sync421 .running 104 [104, 105]) =
    [(104, 0, [104, 105, 106], none, 0), (104, 0, [104, 105, 106, 107], none, 0), (106, 0, [106, 107], some .present, 1),
      (109, 0, [112], none, 3), (109, 1, [112], some .repeated, 0), (110, 0, [112], some .fill, 0)] := by
  decide +kernel

/-- The second sequence of chapter 3: a return across the wrap, a discontinuity and a LATE frame. -/
theorem test_wrap : trace [.arrive 65534, .tick, .arrive 0, .tick, .tick, .arrive 65535, .tick, .arrive 300, .tick,
      .arrive 40000, .tick] (sync421 .seeking 9 []) =
    [(65534, 0, [65534], none, 0), (65534, 0, [65534], some .fill, 0), (65534, 0, [65534, 0], none, 0),
      (65535, 0, [0], some .present, 0), (65535, 1, [0], some .repeated, 0), (65535, 1, [65535, 0], none, 0),
      (0, 0, [0], some .present, 0), (300, 0, [300], none, 1), (301, 0, [], some .present, 0), (301, 0, [], none, 0),
      (301, 0, [], some .repeated, 0)] := by
  decide +kernel

/-- The quantisers of the budget sequence of chapter 6. -/
theorem test_quantisers : [0, 6000, 17000, 55000, 45000].map (fun n =>
    quantiser { (up.chan 0).sel with fullness := n }) = [4, 6, 10, 26, 22] := by decide +kernel

/-- The peer lists and the rank of the three-station sequence of chapter 7. -/
theorem test_ranks :
    enterPeer { station := 17#5, damage := 12 } (enterPeer { station := 9#5, damage := 12 } []) =
        [{ station := 9#5, damage := 12 }, { station := 17#5, damage := 12 }] ∧
      (State.peersAhead { Record.cleared with
        damage := 46, peers := [{ station := 9#5, damage := 12 }, { station := 17#5, damage := 12 }] } up).length = 2 ∧
      State.peersAhead { Record.cleared with
        damage := 5, peers := [{ station := 4#5, damage := 5 }] } up = [{ station := 4#5, damage := 5 }] ∧
      State.peersAhead { Record.cleared with
        damage := 5, peers := [{ station := 6#5, damage := 5 }] } up = [] := by decide +kernel

/-- A damage score saturates (R53). -/
theorem test_damage : damageScore { Counts.zero with fills := 2, skipped := 3, repeats := 2, drops := 1 } = 46 ∧
    damageScore { Counts.zero with fills := 8191, skipped := 1 } = 65535 := by decide

/-- The tick at which the hold-over counter passes k ends the take itself, before any other event (R70, R71). -/
theorem test_hold_over_settled_in_the_tick :
    let s := (withChan fun x => { x with take := { x.take with st := .recording, holdOver := 50 } }).onRec 0 fun r =>
      { r with st := .opened, twin := true }
    let t := State.takeTick false 0 s
    ((t.chan 0).take.st, (t.record 0).st, (t.record 0).torn, (t.record 0).map,
        t.cue.queue.map (fun e => e.msg == .notice .takeEnd 0x04#8 0x00#8 s.ref.count)) =
      (.armed, .deciding, true, [], [false, true]) := by decide +kernel

/-- Channel 0 RECORDING at count 502 with its feed LIVE, a frame in its window, `left` ticks on its frame waiting timer, and a
frame of which the last check byte is still to come, the sixteenth CORRUPT outcome if it is bad. -/
def waiting (left : Nat) : State :=
  let s := (receiving (.payload header7 (payload0.take 4)) 15).onSync 0 fun y => { y with window := [frameNo 9] }
  { s.onPort 0 fun p => { p with waitTimer := some left } with ref := { s.ref with count := 502#32 } }

/-- What an expiry leaves of channel 0, and the notices queued with their counts. -/
structure LossSeen where
  feed : FeedCondition
  frames : Nat
  holdOver : Nat
  st : ChannelState
  bad : Nat
  queued : List Message
  deriving DecidableEq, Repr

/-- Channel 0 of a state, as `LossSeen` has it. -/
def lossSeen (s : State) : LossSeen :=
  { feed := (s.chan 0).port.feed, frames := (s.chan 0).sync.window.length, holdOver := (s.chan 0).take.holdOver,
    st := (s.chan 0).take.st, bad := (s.chan 0).port.consecBad, queued := s.cue.queue.map TxEntry.msg }

/-- A FEED LOST (SILENT), FEED BACK or FEED FAULT notice of channel 0 with a count. -/
def feedNotice (cause : Cause) (reason : Byte) (n : Nat) : Message := .notice cause reason 0#8 (BitVec.ofNat 32 n)

/-- The frame waiting timer of the sequence of chapter 2 expires at tick 503, and not before: its FEED LOST carries 503
whether the expiry is taken before the placement of that tick, which is then counted for hold-over, or after it (R9, R12,
R26, R50, R70). -/
theorem test_silence_at_its_tick :
    lossSeen (after (exec (.frameWaitingTimerExpiry 0) (waiting 1))) = lossSeen (waiting 1) ∧
    lossSeen (State.houseTick { quiet with order := [.waiting 0] } (waiting 1)) =
      ⟨.lost .silent, 0, 1, .recording, 15, [feedNotice .feedLost 0x01#8 503]⟩ ∧
    lossSeen (after (exec (.frameWaitingTimerExpiry 0) (State.houseTick quiet (waiting 1)))) =
      ⟨.lost .silent, 0, 0, .recording, 15, [feedNotice .feedLost 0x01#8 503]⟩ := by decide +kernel

/-- The last check byte of a frame falls together with the expiry, taken first: a good frame makes the feed LIVE again with a
FEED BACK, a bad one is the sixteenth CORRUPT outcome and declares FEED FAULT (R22, R26); a byte that comes later finds the
receiver in HUNT (R27). -/
theorem test_frame_together_with_silence :
    let lost := after (exec (.frameWaitingTimerExpiry 0) (waiting 0))
    let last (b : Byte) (together : Bool) : State := after (exec (.frameComplete 0 { bytes := [b], together := together }) lost)
    lossSeen (last 0x8D#8 true) =
      ⟨.lost .ended, 0, 0, .recording, 0,
      [feedNotice .feedLost 0x01#8 502, feedNotice .feedBack 0x00#8 502, feedNotice .feedLost 0x03#8 502]⟩ ∧
    lossSeen (last 0x8C#8 true) =
      ⟨.lost .silent, 0, 0, .idle, 16,
      [feedNotice .feedLost 0x01#8 502, feedNotice .feedFault 0x00#8 502, feedNotice .takeEnd 0x05#8 502]⟩ ∧
    lossSeen (last 0x8D#8 false) =
      ⟨.lost .silent, 0, 0, .recording, 15, [feedNotice .feedLost 0x01#8 502]⟩ ∧
    ((last 0x8D#8 false).chan 0).port.rx = .hunt [0x8D#8] := by decide +kernel

/-- An UNSTORED that empties the ahead list makes a HELD record take over, while the link is FAILED too, where the record
waits as QUEUED; a commit timer takes nothing over there (R129, R132, R153). -/
theorem test_takeover_while_failed :
    let held : State := (inUse .held true).onRec 0 fun r => { r with ahead := [9#5], commitTimer := some 0 }
    let failed : State := { held with link := { held.link with st := .failed, latch := false } }
    let heard (s : State) : State := after (exec (.unstoredHeard (toFeed keyBytes0)) s)
    ((heard held).record 0).st = .indexing ∧ (heard held).arb.takeovers = 1 ∧
      ((heard failed).record 0).st = .queued ∧ (heard failed).arb.takeovers = 1 ∧
      (heard failed).cue.queue.length = 1 ∧
      ((after (exec (.commitTimerExpiry 0) failed)).record 0).st = .held := by decide +kernel

/-- A dominant run that begins at idle: its start bit and first bits fail their stuffing check, and the stuck line that
follows counts nothing more (R159, R163, R164). -/
theorem test_stuck_from_idle :
    let idle : State := withCue fun l => { l with activity := .waiting 11 }
    let failed := after (exec (.cueLineFrame 0 (List.replicate 7 false)) idle)
    let stuck := after (exec (.lineStuck false) failed)
    failed.cue.rxBad = 1 ∧ stuck.cue.rxBad = 1 ∧ stuck.cue.stuckLatch = true ∧ stuck.cue.activity = .waiting 0 := by
  decide +kernel

/-- A frame whose check does not match leaves a count of 8 toward idle, as a well-formed one does, though its check ends in
recessive bits, and with its end field given as a gap it leaves the same; three more bit times make the line idle. Where the
line was not idle the recessive run alone counts, whatever the bits before it spell, and a dominant bit with 11 recessive ones
after it leaves the line idle (R159, R164). -/
theorem test_idle_after_a_bad_frame :
    let idle : State := withCue fun l => { l with activity := .waiting 11 }
    let heard (s : State) (bits : List Bool) : State := after (exec (.cueLineFrame 0 bits) s)
    let cut := badFrame.take (badFrame.length - 8)
    receiveFrame badFrame = none ∧ trailingRecessive badFrame = 13 ∧
      (heard idle badFrame).cue.activity = .waiting 8 ∧ (heard idle badFrame).cue.rxBad = 1 ∧
      (after (exec (.lineIdleSend 8) (heard idle cut))).cue.activity = .waiting 8 ∧
      (heard idle (badFrame ++ List.replicate 3 true)).cue.activity = .waiting 11 ∧
      (heard idle (frameBits (frameFields 1 9#5 0x17#8 .all []))).cue.activity = .waiting 8 ∧
      (heard up badFrame).cue.activity = .waiting 11 ∧ (heard up badFrame).cue.rxBad = 0 ∧
      (heard up (badFrame.take (badFrame.length - 8))).cue.activity = .waiting 5 ∧
      (heard up (badFrame.take (badFrame.length - 5))).cue.activity = .waiting 8 ∧
      (heard idle (false :: List.replicate 11 true)).cue.activity = .waiting 11 ∧
      (heard up (false :: List.replicate 11 true)).cue.activity = .waiting 11 := by decide +kernel

/-! ### Witnesses: states and operands that meet the hypotheses of the statements -/

theorem witness_StepTakesFrontCommand : { up with pending := [.cleared, .clash] }.pending = [.cleared, .clash] := rfl

theorem witness_QueueKeptByCommands :
    up.pending = [] ∧ exec .storeHaltRelease up = .next { up with storeHalt := false } := ⟨rfl, rfl⟩

/-- An engine that is starting up with STORE-HALT asserted. -/
def starting : State := { State.reset with storeHalt := true, status := { State.reset.status with phase := .startingUp } }

theorem witness_StartUp : State.reset.status.phase = .inReset ∧ starting.status.phase = .startingUp ∧
    imageGood image33 = true ∧ imageGood image32 = false ∧ imageGood [] = false ∧
    imageGood (129#8 :: List.replicate 128 0#8) = false ∧
    imageGood (image33.take 32) = false ∧ starting.cue.queue = [] ∧ starting.storeHalt = true ∧
    starting.link.latch = true ∧ builtInConfiguration.mask.getLsbD 0 = true ∧
    builtInConfiguration.mask.getLsbD 9 = true := by decide +kernel

/-- Every parameter at the low end of its range. -/
def lowest : ChannelParams :=
  { segLen := 8, w := 1, p := 1, g := 0, fwt := 1, k := 0, twin := false, gating := false, n := 1, d := 1,
    target := 512, bucket := 1024, qMin := 1, qMax := 1 }

/-- Every parameter at the high end of its range. -/
def highest : ChannelParams :=
  { segLen := 1024, w := 8, p := 8, g := 7, fwt := 255, k := 1023, twin := true, gating := true, n := 16, d := 16,
    target := 65535, bucket := 4194304, qMin := 31, qMax := 31 }

theorem witness_ClampBringsIntoRange : clampParams lowest = lowest ∧ clampParams highest = highest ∧
    clampParams
      { highest with
        segLen := 1025, w := 9, p := 9, g := 8, fwt := 256, k := 1024, n := 17, d := 17, target := 65536,
        bucket := 4194305, qMin := 32, qMax := 32 } = highest ∧
    clampParams
      { lowest with
        segLen := 7, w := 0, p := 0, fwt := 0, n := 0, d := 0, target := 511, bucket := 1023, qMin := 0,
        qMax := 0 } = lowest := by decide +kernel

/-- Each clause of the tick: the presence run at 1 and at 2, with and without gating; every channel state; the hold-over
counter one below k and at k; a boundary and none; a segment OPEN and none. -/
theorem witness_HouseTickMovesTheCount : up.ref.preset = none ∧
    (withRef fun r => { r with preset := some 0xFFFFFFFF#32 }).ref.preset = some 0xFFFFFFFF#32 ∧
    (∀ run ∈ [0, 1, 2], ∀ gated ∈ [true, false],
      let p := ((withChan fun x =>
        { x with port := { x.port with opened := true, gating := gated, debPresence := true, presenceRun := run } }).chan
          0).port
      false ≠ p.debPresence ∧ true = p.debPresence ∧ (p.presenceRun + 1 < 3 ↔ run < 2) ∧ p.gating = gated ∧
        p.opened = true) ∧
    true ≠ (up.chan 0).port.debPresence ∧
    (∀ n ∈ [49, 50],
      let x := (withChan fun x => { x with take := { x.take with st := .recording, holdOver := n } }).chan 0
      x.take.st = .recording ∧ x.port.feed ≠ .live ∧ (x.take.holdOver + 1 ≤ x.take.k ↔ n = 49)) ∧
    (up.chan 0).take.st = .idle ∧ ((inState .armed none).chan 0).take.st ≠ .recording ∧
    up.openRecord 0 = none ∧ (withRec fun r => { r with st := .opened }).openRecord 0 = some 0 := by decide +kernel

theorem witness_FirstPulseLocks : up.running = true ∧ up.ref.st = .waiting := ⟨rfl, rfl⟩

theorem witness_MeasuredPulseTicks : ∀ st ∈ [RefState.locking, .locked],
    let s := withRef fun r => { r with st := st, measStart := some 10 }
    s.running = true ∧ (s.ref.st = .locking ∨ s.ref.st = .locked) ∧ s.ref.measStart = some 10 ∧ 10 ≤ 10 := by
  decide +kernel

/-- In FLYWHEEL, with a capture of 40,000 microseconds and the last tick at 100. -/
def flying : State := withRef fun r => { r with st := .flywheel, flywheel := true, cur := 40000, lastTick := some 100 }

/-- The last absorbed instant and the first that is taken as a tick. -/
theorem witness_ReturnOfReference : flying.running = true ∧ flying.ref.st = .flywheel ∧
    flying.ref.lastTick = some 100 ∧ 100 ≤ 20099 ∧ 2 * (20099 - 100) < flying.ref.cur ∧
    flying.ref.cur ≤ 2 * (20100 - 100) := by decide +kernel

theorem witness_LossOfReferenceAndFlywheel :
    (let s := withRef fun r => { r with st := .locked, deadline := some 120003 }
     s.ref.st = .locked ∧ s.ref.deadline = some 120003 ∧ 120003 ≤ 2 * 60002) ∧
    flying.ref.st = .flywheel ∧ flying.ref.flywheel = true ∧ flying.ref.lastTick = some 100 ∧
    100 + flying.ref.cur ≤ 40100 := by decide +kernel

theorem witness_UnheardLaneBytesChangeNothing : (up.chan 0).port.opened = false ∧
    (let s := withChan fun x => { x with port := { x.port with opened := true, gating := true } }
     (s.chan 0).port.gating = true ∧ (s.chan 0).port.debPresence = false) := by decide +kernel

/-- A marker that comes whole, one that other bytes come before, and one of which one, two or three bytes have come. -/
theorem witness_SyncMarkerFoundAtAnyOffset :
    ∀ x ∈ [([], syncMarker), ([], [0x4E#8, 0x1B#8] ++ syncMarker), ([0x4E#8], syncMarker.drop 1),
        ([0x4E#8, 0x1B#8], syncMarker.drop 2), ([0x4E#8, 0x1B#8, 0x72#8], syncMarker.drop 3),
        ([0x4E#8, 0x1B#8, 0x72#8], syncMarker)],
      let s := receiving (.hunt x.1) 0
      (s.chan 0).port.receives = true ∧ (s.chan 0).port.rx = .hunt x.1 ∧ x.1.length ≤ 3 ∧ x.2 ≠ [] ∧
        syncMarker <:+ x.1 ++ x.2 ∧ ¬ syncMarker <:+: (x.1 ++ x.2).dropLast := by decide +kernel

/-- A header one byte short, and a frame one check byte short, with the consecutive-bad count at 0, 14 and 15. -/
theorem witness_HeadersAndFramesJudged :
    (∀ bad ∈ [0, 14, 15], let s := receiving (.header (goodHeader.take 15)) bad
      (s.chan 0).port.receives = true ∧ (s.chan 0).port.rx = .header (goodHeader.take 15) ∧
        (goodHeader.take 15 ++ [0xF0#8]).length = 16 ∧ headerGood (goodHeader.take 15 ++ [0xF0#8]) = true ∧
        headerGood (goodHeader.take 15 ++ [0xF1#8]) = false ∧ (s.chan 0).port.consecBad = bad) ∧
    (∀ bad ∈ [0, 14, 15], let s := receiving (.payload { header7 with feedId := 0x1401#16 } (payload0.take 4)) bad
      (s.chan 0).port.receives = true ∧ (payload0.take 4 ++ [0x8D#8]).length = header7.length + 4 ∧
        crc32 ((payload0.take 4 ++ [0x8D#8]).take 1) = field (payload0.take 4 ++ [0x8D#8]) 1 4 ∧
        crc32 ((payload0.take 4 ++ [0x8C#8]).take 1) ≠ field (payload0.take 4 ++ [0x8C#8]) 1 4 ∧
        (s.chan 0).port.feedId ≠ some 0x1401#16 ∧ (s.chan 0).port.consecBad = bad) := by decide +kernel

theorem witness_FrameAccepted :
    (let s := receiving (.payload header7 []) 0
     (s.chan 0).port.receives = true ∧ (s.chan 0).port.rx = .payload header7 [] ∧ payload0 ≠ [] ∧
       ([] ++ payload0).length = header7.length + 4 ∧
       crc32 (([] ++ payload0).take header7.length) = field ([] ++ payload0) header7.length 4 ∧
       (s.chan 0).port.feedId = some header7.feedId) ∧
    (∀ first ∈ [true, false],
      ((withChan fun x => { x with port := { x.port with firstSinceArm := first } }).chan 0).port.firstSinceArm =
        first) ∧
    up.openRecord 0 = none ∧ (withRec fun r => { r with st := .opened }).openRecord 0 = some 0 := by decide +kernel

/-- A receiver that an expiry has interrupted one byte before the end of a header or of a frame, and earlier. -/
def cutShort (rx : Receiver) : State := (receiving (.hunt []) 0).onPort 0 fun p => { p with interrupted := rx }

theorem witness_FrameWaitingTimerExpires :
    (let s := withChan fun x => { x with port := { x.port with waitTimer := some 0, feed := .live } }
     (s.chan 0).port.waitTimer = some 0 ∧ (s.chan 0).port.feed = .live) ∧
    (let s := withChan fun x => { x with port := { x.port with waitTimer := some 0 } }
     (s.chan 0).port.waitTimer = some 0 ∧ (s.chan 0).port.feed ≠ .live) ∧
    ((waiting 1).chan 0).port.waitTimer ≠ some 0 ∧ (up.chan 0).port.waitTimer ≠ some 0 ∧
    (∀ n ∈ [14, 15], let s := cutShort (.header (goodHeader.take n))
      (s.chan 0).port.receives = true ∧ (s.chan 0).port.rx = .hunt [] ∧ (goodHeader.take n).length = n ∧
        (n = 15 → headerGood (goodHeader.take n ++ [0xF0#8]) = true ∧
          headerGood (goodHeader.take n ++ [0xF1#8]) = false)) ∧
    (∀ n ∈ [3, 4], let s := cutShort (.payload header7 (payload0.take n))
      (s.chan 0).port.interrupted = .payload header7 (payload0.take n) ∧
        ((payload0.take n).length = header7.length + 3 ↔ n = 4)) ∧
    up.openRecord 0 = none ∧ (withRec fun r => { r with st := .opened }).openRecord 0 = some 0 := by decide +kernel

/-- Every channel state for a fault, and every row of the tally's table, with a tally that changes and one that does not. -/
theorem witness_FeedFaultClosesTheChannel :
    (∀ st ∈ [ChannelState.idle, .armed, .recording, .ending], ((inState st none).chan 0).take.st = st) ∧
    (∀ fault ∈ [true, false], ∀ st ∈ [ChannelState.idle, .armed, .recording, .ending],
      ∀ feed ∈ [FeedCondition.live, .lost .silent],
      let s := withChan fun x =>
        { x with port := { x.port with faultMark := fault, feed := feed }, take := { x.take with st := st } }
      (s.chan 0).port.tally = .off ∧ (tallyOf fault st feed = .off ↔ fault = false ∧ st = .idle)) := by decide +kernel

theorem witness_ArrivalEndsSeeking : (sync421 .seeking 9 []).st = .seeking := rfl

/-- Both ends of each band of R37, with w = 4 and E = 65534. -/
theorem witness_ArrivalBands : let y := sync421 .running 65534 [65534, 1]
    y.st ≠ .seeking ∧ 1 ≤ y.w ∧ y.w ≤ 8 ∧ (∃ x ∈ y.window, (x.seq - y.e).toNat = 3) ∧
      (∀ x ∈ y.window, (x.seq - y.e).toNat ≠ 2) ∧
      [65534, 1, 2, 253, 254, 32765, 32766, 65533].map (fun n => ((frameNo n).seq - y.e).toNat) =
        [0, 3, 4, 255, 256, 32767, 32768, 65535] := by decide +kernel

theorem witness_ReleaseOfATick : (sync421 .seeking 9 []).st = .seeking ∧
    (sync421 .preroll 9 [9]).window.length < (sync421 .preroll 9 [9]).p ∧
    (sync421 .preroll 9 [9, 10]).st = .preroll ∧ (sync421 .preroll 9 [9, 10]).p ≤ (sync421 .preroll 9 [9, 10]).window.length ∧
    (sync421 .running 9 []).window = [] ∧
    (let y := sync421 .running 9 [10]
     y.window ≠ [] ∧ (∀ x ∈ y.window, x.seq ≠ y.e) ∧ ¬ y.g < y.h + 1 ∧ y.g < ({ y with h := 1 } : Synchroniser).h + 1) ∧
    (∀ win ∈ [[9], [9, 10, 11], [9, 10, 11, 12]], let y := sync421 .running 9 win
     frameNo 9 ∈ y.window ∧ (frameNo 9).seq = y.e ∧ y.window.Pairwise (fun a b => a.seq ≠ b.seq)) ∧
    (let left := (sync421 .running 9 [9, 10, 11, 12]).window.filter fun x => decide (x.seq ≠ 9#16)
     2 < left.length ∧ ∃ x ∈ left, x.seq = 10#16) ∧
    (let left := (sync421 .running 9 [9, 10, 11]).window.filter fun x => decide (x.seq ≠ 9#16)
     ¬ 2 < left.length) := by decide +kernel

/-- A full window, and the empty window of SEEKING. -/
theorem witness_WindowStaysWithinItsDepth : ∀ y ∈ [sync421 .running 65534 [65534, 65535, 0, 1], sync421 .seeking 9 []],
    1 ≤ y.w ∧ y.w ≤ 8 ∧ y.window.length ≤ y.w ∧ (∀ x ∈ y.window, (x.seq - y.e).toNat < y.w) ∧
      y.window.Pairwise (fun a b => (a.seq - y.e).toNat < (b.seq - y.e).toNat) ∧
      (y.st = .seeking → y.window = []) := by decide +kernel

/-- An ARM payload: port, no field present, a feed. -/
def armFor (port f1 f0 : Byte) : List Byte := [port, 0#8, 0#8, f1, f0] ++ List.replicate 18 0#8

/-- Channel 1 holds feed 1400H; channels 0 and 3 are IDLE. -/
def oneArmed : State :=
  up.setChan 1 (let x := up.chan 1; { x with port := { x.port with feedId := some 0x1400#16 }, take := { x.take with st := .armed } })

theorem witness_ArmByItsChecks :
    (∀ p ∈ [armFor 0#8 0x14#8 0x01#8, armFor 3#8 0x14#8 0x01#8, armFor 4#8 0x14#8 0x01#8, armFor 1#8 0x14#8 0x01#8,
        armFor 0#8 0#8 0#8, armFor 0#8 0x14#8 0x00#8],
      oneArmed.accepts (toStation p) = true ∧ 23 ≤ p.length) ∧
    parsePort (armFor 3#8 0x14#8 0x01#8) = some 3 ∧ parsePort (armFor 4#8 0x14#8 0x01#8) = none ∧
    (oneArmed.chan 0).take.st = .idle ∧ (oneArmed.chan 3).take.st = .idle ∧ (oneArmed.chan 1).take.st ≠ .idle ∧
    (parseArm (armFor 0#8 0#8 0#8)).feed = 0#16 ∧ (parseArm (armFor 3#8 0x14#8 0x01#8)).feed = 0x1401#16 ∧
    (∀ d : Port, (oneArmed.chan d).take.st ≠ .idle → (oneArmed.chan d).port.feedId ≠ some 0x1401#16) ∧
    (∃ d : Port, (oneArmed.chan d).take.st ≠ .idle ∧
      (oneArmed.chan d).port.feedId = some (parseArm (armFor 0#8 0x14#8 0x00#8)).feed) := by decide +kernel

/-- Every channel state with and without a buffered cue, for the commands that act on a channel. -/
theorem witness_DisarmByState : ∀ st ∈ [ChannelState.idle, .armed, .recording, .ending],
    (inState st none).accepts (toStation [0#8]) = true ∧ [0#8] ≠ ([] : List Byte) ∧ parsePort [0#8] = some 0 ∧
      parsePort [4#8] = none ∧ ((inState st none).chan 0).take.st = st := by decide +kernel

theorem witness_StopCutAndHoldOver :
    (∀ st ∈ [ChannelState.idle, .armed, .recording, .ending], ∀ b ∈ [none, some cue7],
      (inState st b).accepts (toAll [0#8]) = true ∧ (inState st b).commandPort (toAll [0#8]) = some 0 ∧
        (inState st b).commandPort (toAll [4#8]) = none ∧ ((inState st b).chan 0).take.st = st ∧
        ((inState st b).chan 0).take.buffer = b) ∧
    (inState .recording none).commandPort (toFeed [3#8]) = some 0 ∧
    (inState .recording none).accepts (toFeed [3#8]) = true ∧
    (let s := withChan fun x => { x with take := { x.take with st := .recording, holdOver := 51 } }
     (s.chan 0).take.st = .recording ∧ (s.chan 0).take.k < (s.chan 0).take.holdOver) := by decide +kernel

/-- A CUE payload: port, clip id, open, flags. -/
def cueFor (port clip flags : Byte) : List Byte := [port, 0#8, 0#8, 0#8, clip, 0#8, 0#8, flags]

theorem witness_CueChecked :
    (∀ st ∈ [ChannelState.idle, .armed, .recording, .ending], ∀ b ∈ [none, some cue7],
      (inState st b).accepts (toAll (cueFor 0#8 7#8 0#8)) = true ∧ 8 ≤ (cueFor 0#8 7#8 0#8).length ∧
        (inState st b).commandPort (toAll (cueFor 0#8 7#8 0#8)) = some 0 ∧
        (inState st b).commandPort (toAll (cueFor 4#8 7#8 0#8)) = none ∧ ((inState st b).chan 0).take.st = st ∧
        ((inState st b).chan 0).take.buffer = b) ∧
    (parseCue (cueFor 0#8 0#8 0#8)).clip = 0#32 ∧ (parseCue (cueFor 0#8 0#8 0#8)).tie = false ∧
    (parseCue (cueFor 0#8 0#8 1#8)).clip = 0#32 ∧ (parseCue (cueFor 0#8 0#8 1#8)).tie = true ∧
    (parseCue (cueFor 0#8 7#8 0#8)).clip ≠ 0#32 := by decide +kernel

theorem witness_ResetChannelFreesItsRecords :
    up.accepts (toStation [3#8]) = true ∧ (toStation [3#8]).target = .station 5#16 ∧ parsePort [3#8] = some 3 ∧
    up.accepts (toStation [4#8]) = true ∧ parsePort [4#8] = none ∧
    ∀ st ∈ [RecState.opened, .closing, .deciding, .held, .queued, .writing, .indexing],
      ((inUse st true).record 0).channel = 0 ∧ ((inUse st true).record 0).st = st ∧
        (inUse st true).accepts (toStation [0#8]) = true := by decide +kernel

/-- A boundary in every state it is handled in: with and without a cue in the buffer, with an active cue that is open, timed
with a segment left and used up; and a span with and without PAUSE. -/
theorem witness_BoundaryStartsATake :
    (∀ b ∈ [none, some cue7], ((inState .armed b).chan 0).take.st = .armed ∧
      ((inState .armed b).chan 0).take.buffer = b ∧ (inState .armed b).openRecord 0 = none) ∧
    ((inState .ending none).chan 0).take.st = .ending ∧ ((inState .ending none).chan 0).take.buffer = none ∧
    (∀ b ∈ [none, some cue7, some { cue7 with tie := true }], ∀ q ∈ [cue7, { cue7 with length := 2 }],
      ∀ left ∈ [0, 1], let t := (((inState .recording b).onTake 0 fun t =>
          { t with active := some q, remaining := left }).chan 0).take
        t.st = .recording ∧ t.active = some q ∧ t.buffer = b ∧ t.remaining = left) ∧
    (∀ pause ∈ [true, false], (((inState .recording none).onTake 0 fun t =>
      { t with active := some { cue7 with pause := pause } }).chan 0).take.active =
        some { cue7 with pause := pause }) := by decide +kernel

/-- Record 0 HELD, with the free page count at a number. -/
def heldAndFree (n : Nat) : State :=
  let s := withRec fun r => { r with st := .held, decisionTime := some 7#32 }
  { s with pool := { s.pool with free := List.range' 0 n } }

/-- Every record in one state under `key0`. -/
def allRecords (st : RecState) : State :=
  { up with pool := { up.pool with records := Vector.replicate 64 { Record.cleared with st := st, key := key0 } } }

/-- A request that is met at the list's limit, and one beyond it; the low mark exactly met and missed by one page; a key in
use, a FREE record, and none FREE with and without a HELD one. -/
theorem witness_PagesGivenBackAndRequested :
    (let s := withRec fun r => { r with st := .opened, brwPages := List.range' 20000 127 }
     (s.record 0).st ≠ .held ∧ (s.requestPages 0 .browse 1).2 = true ∧ (s.requestPages 0 .browse 2).2 = false ∧
       ((s.record 0).pages .browse).length + 1 = pageLimit .browse) ∧
    (let s := heldAndFree 1
     (s.takePages 0 .essence 1).2 = true ∧ s.pool.free = [0]) ∧
    (let s := { up with pool := { up.pool with free := [5, 6] } }
     s.oldestHeld = none ∧ (s.takePages 0 .essence 2).2 = true ∧ (s.takePages 0 .essence 3).2 = false ∧
       s.pool.free.length < 3) ∧
    (heldAndFree 1025).status.cfg.lowMark + 1 ≤ (heldAndFree 1025).pool.free.length ∧
    (∀ n ∈ [1023, 1024], (heldAndFree n).oldestHeld = some 0 ∧ (heldAndFree n).status.cfg.lowMark = 1024 ∧
      (heldAndFree n).pool.free.length = n) ∧
    up.oldestHeld = none ∧
    (((allRecords .queued).record 0).st ≠ .free ∧ ((allRecords .queued).record 0).key = key0) ∧
    (up.record 0).st = .free ∧
    (∀ st ∈ [RecState.held, .queued], ∀ i, ((allRecords st).record i).st ≠ .free ∧
      ((allRecords st).record i).key ≠ { key0 with clip := 1#32 }) ∧
    (allRecords .held).oldestHeld = some 0 ∧ (allRecords .queued).oldestHeld = none := by
  decide +kernel

/-- A frame of one byte packed into an OPEN record with no page, and one that no page is found for. -/
theorem witness_StagingMemoryWrittenByPackingAlone : let s := withRec fun r => { r with st := .opened }
    let f : FrameRecord := { frameNo 7 with payload := [0x55#8] }
    s.mem.wf = true ∧ (s.record 0).st = .opened ∧ s.pack 0 f = ((s.pack 0 f).1, true) ∧
      (((s.pack 0 f).1).record 0).essPages = [0] ∧ ([0] : List Nat).Nodup ∧
      (State.pack 0 f { s with pool := { s.pool with free := [] } }).2 = false ∧
      exec .storeHaltRelease up = .next { up with storeHalt := false } := by
  intro s f
  have h : (s.pack 0 f).2 = true ∧ (((s.pack 0 f).1).record 0).essPages = [0] := by decide +kernel
  exact ⟨rfl, by decide +kernel, Prod.ext rfl h.1, h.2, by decide, by decide +kernel, rfl⟩

theorem witness_CloseAndCloseComplete :
    (withRec fun r => { r with pendingJobs := 1 }).record 0 ≠ Record.cleared ∧
    ((withRec fun r => { r with pendingJobs := 1 }).record 0).pendingJobs ≠ 0 ∧ (up.record 0).pendingJobs = 0 ∧
    ((withRec fun r => { r with storedElsewhere := true }).record 0).storedElsewhere = true ∧
    (up.record 0).storedElsewhere = false ∧ ((withRec fun r => { r with twin := true }).record 0).twin = true ∧
    (up.record 0).twin = false ∧ up.openRecord 0 = none ∧
    (withRec fun r => { r with st := .opened }).openRecord 0 = some 0 := by decide +kernel

/-- A job of channel 0 for record 0. -/
def job0 : Job := { channel := 0, record := 0, entry := 0, offset := 0, length := 1, withdrawn := false }

/-- The fullness at both ends of the bucket; the accumulator one step below d and at d; the queue at 11 and at 12 jobs. -/
theorem witness_QuantiserWithinItsRange :
    (∀ f ∈ [0, 60000], let x : Selector := { (up.chan 0).sel with fullness := f }
      x.qMin ≤ x.qMax ∧ x.fullness ≤ x.bucket) ∧
    (∀ a ∈ [2, 3], let x := ((withChan fun x => { x with sel := { x.sel with n := 1, d := 4, a := a } }).chan 0).sel
      (x.d ≤ x.a + x.n ↔ a = 3)) ∧
    (List.replicate 11 job0).length < 12 ∧ 12 ≤ (List.replicate 12 job0).length ∧
    up.browse.coder = .idle ∧ up.browse.jobs = [] ∧
    (let s : State := { up with browse := { up.browse with jobs := [job0] } }
     s.browse.coder = .idle ∧ s.browse.jobs = [job0]) := by decide +kernel

/-- The coder busy with a job, a second job behind it, and record 0 CLOSING with its drain timer run out. -/
def coding (withdrawn : Bool) (full : Nat) : State :=
  { (withChan fun x => { x with sel := { x.sel with fullness := full } }).onRec 0
      (fun r => { r with st := .closing, entries := [.reserved, .reserved], pendingJobs := 2, drainTimer := some 0 }) with
    browse := { jobs := [{ job0 with withdrawn := withdrawn }, { job0 with entry := 1 }], coder := .coding 4 } }

theorem witness_WithdrawnCompletionDiscarded : (coding true 0).browse.coder = .coding 4 ∧
    (coding true 0).browse.jobs = { job0 with withdrawn := true } :: [{ job0 with entry := 1 }] := by decide +kernel

/-- A coded size at the bucket's edge (kept, or skipped for want of pages) and one byte above it. -/
theorem witness_CompletionSettled : (coding false 59000).browse.jobs = job0 :: [{ job0 with entry := 1 }] ∧
    job0.withdrawn = false ∧
    (let x := ((coding false 59000).chan 0).sel
     x.fullness + 11000 ≤ x.bucket + x.target ∧ x.bucket + x.target < x.fullness + 11001) ∧
    ((coding false 59000).requestPages 0 .browse 1).2 = true ∧
    (let s := coding false 59000
     ((State.requestPages 0 .browse 1 { s with pool := { s.pool with free := [] } }).2 = false)) ∧
    ((coding false 0).record 0).pendingJobs ≠ 0 ∧
    ((withRec fun r => { r with st := .closing }).record 0).pendingJobs = 0 ∧
    (up.record 0).st ≠ .closing := by decide +kernel

theorem witness_DrainTimerExpires : ((coding false 0).record 0).st = .closing ∧
    ((coding false 0).record 0).drainTimer = some 0 ∧ (coding false 0).browse.coder = .coding 4 ∧
    (coding false 0).browse.jobs = job0 :: [{ job0 with entry := 1 }] := by decide +kernel

theorem witness_ReportHeardByState :
    (∀ st ∈ [RecState.opened, .closing, .deciding, .held, .queued, .writing, .indexing], ∀ twin ∈ [true, false],
      let s := inUse st twin
      s.accepts (toFeed (keyBytes0 ++ List.replicate 5 0#8)) = true ∧ 17 ≤ (keyBytes0 ++ List.replicate 5 0#8).length ∧
        s.findKey (parseKey (keyBytes0 ++ List.replicate 5 0#8)) = some 0 ∧ (s.record 0).twin = twin ∧
        (s.record 0).st = st) ∧
    (receiving (.hunt []) 0).findKey (parseKey keyBytes0) = none := by decide +kernel

theorem witness_PeerListKeepsTheBest :
    let l : List Peer := [{ station := 1#5, damage := 0 }, { station := 0#5, damage := 7 }, { station := 31#5, damage := 7 }]
    l.length = 3 ∧ l.Pairwise (fun a b => a.station ≠ b.station) ∧ l.Pairwise (fun a b => ranksBefore a b = true) ∧
      (∃ x ∈ l, x.station = 31#5) ∧ (∀ x ∈ l, x.station ≠ 30#5) ∧ (∀ x ∈ l.take 2, x.station ≠ 31#5) ∧
      (l.take 2).length < 3 := by decide +kernel

theorem witness_ReportWindowDecides :
    (∀ n ∈ [4#5, 6#5], let s := withRec fun r =>
        { r with st := .deciding, windowTimer := some 0, damage := 5, peers := [{ station := n, damage := 5 }] }
      s.status.station = some 5#5 ∧ (s.record 0).st = .deciding ∧ (s.record 0).windowTimer = some 0) ∧
    (decide (4#5 < (5#5 : Station)) = true ∧ decide (6#5 < (5#5 : Station)) = false) := by decide +kernel

theorem witness_StoredHeardByState :
    (∀ st ∈ [RecState.opened, .closing, .deciding, .held, .queued, .writing, .indexing], let s := inUse st false
      s.accepts (toFeed keyBytes0) = true ∧ 12 ≤ keyBytes0.length ∧ s.findKey (parseKey keyBytes0) = some 0 ∧
        (s.record 0).st = st) ∧
    (receiving (.hunt []) 0).accepts (toFeed keyBytes0) = true ∧
    (receiving (.hunt []) 0).findKey (parseKey keyBytes0) = none := by decide +kernel

/-- A state with the store link in a link state. -/
def linkAt (st : LinkState) (s : State) : State := { s with link := { s.link with st := st } }

theorem witness_CommitTimerExpiryTakesOver :
    ∀ st ∈ [LinkState.ready, .failed], let s := withRec fun r => { r with st := .held, commitTimer := some 0 }
      (linkAt st s).link.st = st ∧ ((linkAt st s).record 0).st = .held ∧
        ((linkAt st s).record 0).commitTimer = some 0 := by decide +kernel

theorem witness_AnnouncementsOfStationsAhead : ∀ ahead ∈ [[9#5], [9#5, 17#5]], ∀ st ∈ [LinkState.ready, .failed],
    let s := linkAt st ((inUse .held true).onRec 0 fun r => { r with ahead := ahead })
    s.link.st = st ∧ s.accepts (toFeed keyBytes0) = true ∧ s.findKey (parseKey keyBytes0) = some 0 ∧ (s.record 0).st = .held ∧
      (toFeed keyBytes0).sender ∈ (s.record 0).ahead ∧ 3#5 ∉ (s.record 0).ahead := by decide +kernel

/-- A request of record 0. -/
def request0 (part : Part) : TagRequest := { record := 0, ref := { part := part, page := 0 } }

theorem witness_AcknowledgementByItsTag :
    (∀ k ∈ [(0 : TagIx), 15], ∀ part ∈ [Part.essence, .index], let s := State.setTag k (.outstanding (request0 part) (some 1)) up
      s.running = true ∧ s.link.st ≠ .clearing ∧ s.tag k = .outstanding (request0 part) (some 1) ∧
        (s.record 0).progress.failed = false) ∧
    (let s := State.setTag 0 (.outstanding (request0 .essence) (some 1))
        (withRec fun r => { r with st := .writing, progress := { r.progress with failed := true } })
     (s.record 0).progress.failed = true ∧ s.tag 0 = .outstanding (request0 .essence) (some 1) ∧
       (∀ k : TagIx, k ≠ 0 → s.tag k = .free) ∧
       (State.setTag 1 (.outstanding (request0 .browse) (some 1)) s).tag 1 =
         .outstanding (request0 .browse) (some 1)) ∧
    (15 : TagIx).val = (0x0F#8 : Byte).toNat ∧ 16 ≤ (0x10#8 : Byte).toNat ∧ up.tag 15 = .free ∧
    (withLink fun l => { l with st := .clearing }).link.st = .clearing ∧
    (State.setTag 15 (.quarantined (request0 .essence)) up).tag 15 = .quarantined (request0 .essence) := by decide +kernel

theorem witness_StoreWaitingTimerExpires :
    (∀ failed ∈ [true, false],
      let s := State.setTag 15 (.outstanding (request0 .essence) (some 0))
        (withRec fun r => { r with progress := { r.progress with failed := failed } })
      s.tag 15 = .outstanding (request0 .essence) (some 0) ∧ (s.record 0).progress.failed = failed) ∧
    (up.hasOutstanding 0 = false ∧
      (State.setTag 15 (.outstanding (request0 .essence) none) up).hasOutstanding 0 = true) := by decide +kernel

theorem witness_StoreHaltLine : up.running = true ∧ up.link.latch = true ∧
    (withLink fun l => { l with latch := false }).running = true ∧
    (withLink fun l => { l with latch := false }).link.latch = false ∧ (0x03#8 : Byte) ≠ 0x02#8 ∧
    (0x03#8 : Byte) ≠ 0x04#8 ∧ (0x05#8 : Byte) ≠ 0x04#8 := by decide +kernel

theorem witness_ResumeStoreByState : up.accepts (toAll []) = true ∧ up.accepts (toStation []) = true ∧
    up.storeHalt = false ∧ up.link.st = .ready ∧ up.link.latch = true ∧
    { up with storeHalt := true }.accepts (toAll []) = true ∧
    (∀ st ∈ [LinkState.clearing, .failed], (withLink fun l => { l with st := st }).accepts (toAll []) = true ∧
      (withLink fun l => { l with st := st }).link.st ≠ .ready) ∧
    (withLink fun l => { l with latch := false }).accepts (toAll []) = true ∧
    (withLink fun l => { l with latch := false }).link.latch = false ∧
    (let s : State := { (withRec fun r => { r with st := .queued, essPages := [0], essBytes := 1 }) with
       link := { up.link with queue := [0] } }
     s.link.st = .ready ∧ s.link.latch = true ∧ s.tag 0 = .free ∧ s.pending = [] ∧
       s.chooseRequest = some (0, { part := .essence, page := 0 }) ∧
       (∀ n ∈ [0], n < (s.record 0).essPages.length)) ∧
    up.chooseRequest = none ∧
    (withLink fun l => { l with tags := Vector.replicate 16 (.quarantined (request0 .essence)) }).freeTag = none ∧
    (∀ t ∈ [true, false], { up with pending := [.storedHeard { heard := toFeed keyBytes0, together := t }] }.pending =
      .storedHeard { heard := toFeed keyBytes0, together := t } :: []) := by decide +kernel

/-- A record whose report window has run out, with one page and every tag FREE, and a STORED for its key that is taken
next: when it falls together with the expiry, the record is withdrawn and freed with nothing issued (R125, R134); when
it comes after, its first page has been issued and the record goes on being written (R134). -/
theorem test_stored_after_the_decision : ∀ together ∈ [true, false],
    let s : State := { (inUse .deciding true).onRec 0 (fun r =>
        { r with windowTimer := some 0, essPages := [0], essBytes := 1 }) with
      pending := [.reportWindowExpiry 0, .storedHeard { heard := toFeed keyBytes0, together := together }] }
    let t := after (step s)
    let u := after (step t)
    ((t.record 0).st, (u.record 0).st, u.link.queue, u.storeOut.length) =
      if together = true then (.queued, .free, [], 0) else (.writing, .writing, [0], 1) := by decide +kernel

theorem witness_ResetStoreClears : up.accepts (toAll []) = true ∧ up.link.st ≠ .clearing ∧
    (withLink fun l => { l with st := .clearing }).accepts (toAll []) = true ∧
    (let s : State := { (withRec fun r => { r with st := .writing }) with link := { up.link with queue := [0, 1] } }
     s.accepts (toAll []) = true ∧ 0 ∈ s.link.queue ∧ (s.record 0).st = .writing ∧ (s.record 1).st ≠ .writing ∧
       (s.record 1).st ≠ .indexing) := by decide +kernel

theorem witness_ClearExchangeEnds :
    (let s := withLink fun l => { l with st := .clearing, latch := false, clearTimer := some 0 }
     s.running = true ∧ s.link.st = .clearing ∧ s.link.latch = false ∧ s.link.clearTimer = some 0) ∧
    up.running = true ∧ up.link.st ≠ .clearing ∧ (withLink fun l => { l with st := .failed }).link.st ≠ .clearing := by
  decide +kernel

/-- A transmit queue of `n` messages of one kind, ages from 0. -/
def queueOf (n : Nat) (m : Message) : List TxEntry := (List.range n).map fun a => { msg := m, cls := m.cls false, age := a }

/-- A queue at 15 and at 16 entries; with a notice or an answer to displace, and with none. -/
theorem witness_MessageJoinsTheQueue :
    let notice := Message.notice .start 1#8 0xFF#8 0#32
    let answer := Message.reply 9#5 .done false 0xFF#8 0x16#8
    (queueOf 15 notice).length < 16 ∧ 16 ≤ (queueOf 16 notice).length ∧ notice.precedence ≠ .twin ∧
      (Message.stored key0).precedence = .twin ∧
      (displaced none (queueOf 16 notice)).map TxEntry.age = some 15 ∧
      (displaced (some 15) (queueOf 16 answer)).map TxEntry.age = some 14 ∧
      displaced none (queueOf 16 (.stored key0)) = none ∧
      (queueOf 16 notice).Pairwise (fun a b => a.cls ≤ b.cls) ∧
      (queueOf 16 notice).Pairwise (fun a b => a.msg.precedence = b.msg.precedence → a.age < b.age) := by
  decide +kernel

/-- A message on the line. -/
def sending : State :=
  withCue fun l =>
    { l with activity := .sending, onLine := some 3, queue := [{ msg := .stored key0, cls := 0, age := 3 }], nextAge := 4 }

theorem witness_SendingAndStuckLine :
    (let s := withCue fun l => { l with queue := queueOf 1 (.stored key0) }
     s.cue.enabled = true ∧ s.cue.activity = .waiting 0 ∧ 11 ≤ 0 + 11 ∧
       s.cue.queue = { msg := .stored key0, cls := 0, age := 0 } :: []) ∧
    sending.cue.enabled = true ∧ sending.cue.activity = .sending ∧ sending.cue.onLine = some 3 ∧
    sending.cue.queue.find? (fun x => x.age == 3) = some { msg := .stored key0, cls := 0, age := 3 } ∧
    (withCue fun l => { l with activity := .receiving }).cue.activity = .receiving := by decide +kernel

/-- The line at idle exactly and one bit short of it; a frame that is received and one that is not. -/
theorem witness_FrameReceived : up.cue.enabled = true ∧ up.cue.activity = .waiting 0 ∧ 11 ≤ 0 + 11 ∧ 0 + 10 < 11 ∧
    (withCue fun l => { l with activity := .receiving }).cue.activity = .receiving ∧
    receiveFrame (false :: []) = none ∧
    (receiveFrame (false :: (frameBits (frameFields 1 9#5 0x17#8 .all [])).tail)).isSome = true ∧
    frameParts (false :: []) = none ∧ frameReached (false :: []) = true ∧ frameReached badFrame = true ∧
    (frameParts badFrame).map (fun x => x.2) = some (List.replicate 8 true ++ List.replicate 20 true) := by decide +kernel

theorem witness_FramesRoundTrip : (0 : Nat) < 8 ∧ (7 : Nat) < 8 ∧ Target.all ≠ .other ∧
    (List.replicate 32 0xFF#8 : List Byte).length ≤ 32 := by decide

theorem witness_MessagesThatDoNotAct :
    (∀ n ∈ [22, 7, 3, 1, 0], up.accepts (toStation (List.replicate n 0#8)) = true ∧ (List.replicate n 0#8).length = n) ∧
    up.accepts { toAll [] with sender := 5#5 } = false ∧ up.accepts (toFeed []) = false ∧
    (toFeed (keyBytes0 ++ List.replicate 4 0#8)).payload.length < 17 ∧ (toFeed (keyBytes0.take 11)).payload.length < 12 ∧
    (∀ f : FeedId, (toAll []).target ≠ .feed f) ∧
    (∀ v : BitVec 16, (toAll []).target ≠ .station v) ∧ (toFeed []).target = .feed 0x1400#16 ∧
    up.accepts (toAll []) = true ∧ knownKind 0x0F#8 = false ∧ knownKind 0x1A#8 = false ∧ knownKind 0x34#8 = false := by
  refine ⟨by decide +kernel, by decide +kernel, by decide +kernel, by decide, by decide, ?_, ?_, rfl, by decide +kernel,
    by decide⟩ <;>
  · intro v h
    cases h

theorem witness_PresetTaken : up.accepts (toAll (List.replicate 4 0xFF#8)) = true ∧
    4 ≤ (List.replicate 4 0xFF#8 : List Byte).length := by decide +kernel

theorem witness_QueryAnswered :
    (∀ p ∈ [[0x80#8, 0#8], [0x80#8, 1#8], [0#8, 0#8], [3#8, 1#8], [4#8, 0#8], [0x81#8, 0#8]],
      up.accepts (toStation p) = true ∧ 2 ≤ p.length) ∧
    field [0x80#8, 1#8] 0 1 = 0x80 ∧ parsePort [3#8, 1#8] = some 3 ∧
    (∀ p ∈ [[4#8, 0#8], [0x81#8, 0#8]], field p 0 1 ≠ 0x80 ∧ parsePort p = none) := by decide +kernel

/-- The invariants hold of a running engine, and a step from it answers a next state. -/
theorem witness_Invariants : MemoryCanonical up ∧ DamageKept up ∧ TransmitQueueOrdered up ∧ JobQueueBounded up ∧
    PortsFollowChannels up ∧ SelectorsInRange up ∧ PoolInOrder up ∧
    step { up with pending := [.storeHaltRelease] } = .next { up with storeHalt := false } := by
  have h : ∀ i, up.record i = Record.cleared := by
    intro i
    simp [State.record, up, State.reset, Pool.reset, Vector.get]
  refine ⟨rfl, ?_, ?_, ?_, ?_, ?_, ⟨?_, ?_, ?_, ?_, ?_⟩, rfl⟩
  · unfold DamageKept
    decide +kernel
  · unfold TransmitQueueOrdered
    decide +kernel
  · unfold JobQueueBounded
    decide +kernel
  · unfold PortsFollowChannels
    decide +kernel
  · unfold SelectorsInRange
    decide +kernel
  · intro p
    have f : up.pool.free = List.range' 0 16384 := rfl
    unfold pageCount
    simp only [h, f, Record.cleared, List.count_nil, Nat.add_zero, Finset.sum_const_zero]
    rw [(List.nodup_range' (s := 0) (n := 16384)).count]
    simp
  · intro i _
    exact h i
  · intro i
    rw [h]
    exact ⟨rfl, fun _ _ => rfl⟩
  · intro i hi
    cases hi
  · intro k q timer hk
    have hf : up.tag k = .free := by simp [State.tag, up, State.reset, StoreLink.reset, Vector.get]
    rw [hf] at hk
    cases hk

end Sys2Proof.Tests
end

section
/-! PROOFS. The house timeline: what a reset leaves, the reference pulses, the house tick part by part, and the expiry
of the frame waiting timer. The facts about the operations come first, block by block; the statements follow. -/

namespace Sys2Proof.Machine

/-! ### Commands as the operations they call -/

theorem exec_powerOnReset (s : State) : exec .powerOnReset s = .next s.assertReset := rfl

theorem exec_referencePulse (time : Nat) (tick : TickInput) (s : State) :
    exec (.referencePulse time tick) s = .next (s.pulse time tick) := rfl

theorem exec_lossDeadlineExpiry (time : Nat) (tick : TickInput) (s : State) :
    exec (.lossDeadlineExpiry time tick) s = .next (s.lossOfReference time tick) := rfl

theorem exec_flywheelTick (time : Nat) (tick : TickInput) (s : State) :
    exec (.flywheelTick time tick) s = .next (s.flywheelStep time tick) := rfl

theorem exec_preset (m : Heard) (s : State) : exec (.preset m) s = .next (s.hearPreset m) := rfl

theorem exec_headerJudged (c : Port) (x : LaneBytes) (s : State) :
    exec (.headerJudged c x) s = .next (s.hearLane c x) := rfl

theorem exec_frameComplete (c : Port) (x : LaneBytes) (s : State) :
    exec (.frameComplete c x) s = .next (s.hearLane c x) := rfl

theorem exec_frameWaitingTimerExpiry (c : Port) (s : State) :
    exec (.frameWaitingTimerExpiry c) s = .next (s.waitingExpiry c) := rfl

/-! ### The state a reset leaves -/

theorem State.assertReset_chan (s : State) (c : Port) :
    s.assertReset.chan c = Channel.reset builtInConfiguration.params := by
  simp [State.chan, State.assertReset, State.reset, Vector.get_eq_getElem]

theorem State.assertReset_record (s : State) (i : RecIx) : s.assertReset.record i = Record.cleared := by
  simp [State.record, State.assertReset, State.reset, Pool.reset, Vector.get_eq_getElem]

theorem State.assertReset_tag (s : State) (k : TagIx) : s.assertReset.tag k = .free := by
  simp [State.tag, State.assertReset, State.reset, StoreLink.reset, Vector.get_eq_getElem]

/-! ### Updates of one port -/

/-- Two changes of a port that agree on the port as it stands are one change. -/
theorem State.onPort_congr (s : State) (c : Port) {f g : FeedPort → FeedPort}
    (h : f (s.chan c).port = g (s.chan c).port) : s.onPort c f = s.onPort c g := by
  simp only [State.onPort, h]

/-! ### The tally (R32) -/

theorem tallyLevel_eq (activeLow lit : Bool) : tallyLevel activeLow lit = if activeLow = true then !lit else lit := by
  cases activeLow <;> cases lit <;> rfl

/-! ### Commands that act for every addressing (R175, R176) -/

/-- An accepted command with its whole payload, which acts for a feed and for ALL too, acts and is answered. -/
theorem State.command_of_acts (s : State) (kind : Byte) (need : Nat) (channel : Byte) (act : State → Taken) (m : Heard)
    (accepted : s.accepts m = true) (enough : need ≤ m.payload.length) :
    s.command kind need true true channel act m =
      State.answered m (act s).code (act s).adjusted channel kind (act s).state := by
  cases target : m.target with
  | station v =>
    simp only [State.command, State.answered, accepted, target, if_true, if_neg (Nat.not_lt.mpr enough)]
  | feed f => simp only [State.command, State.answered, accepted, target, enough, and_self, if_true]
  | all => simp only [State.command, State.answered, accepted, target, enough, and_self, if_true]
  | other => simp [State.accepts, target] at accepted

/-! ### Losses (R27, R50) -/

theorem State.declareLost_of_live (s : State) (c : Port) (reason : LossReason) (h : (s.chan c).port.feed = .live) :
    s.declareLost c reason =
      State.syncLoss c (State.channelNotice .feedLost reason.byte c
        (State.onPort c (fun p => { p with waitTimer := none, rx := p.rx.abandon })
          (State.retally c (s.onPort c fun p => { p with feed := .lost reason })))) := by
  simp only [State.declareLost, if_pos h]

theorem State.declareLost_of_lost (s : State) (c : Port) (reason : LossReason) (h : (s.chan c).port.feed ≠ .live) :
    s.declareLost c reason = s.onPort c fun p => { p with feed := .lost reason } := by
  simp only [State.declareLost, if_neg h]

theorem State.countOpen_of_none (s : State) (c : Port) (f : Counts → Counts) (h : s.openRecord c = none) :
    s.countOpen c f = s := by
  simp only [State.countOpen, h]

theorem State.countOpen_of_some (s : State) (c : Port) (f : Counts → Counts) (i : RecIx)
    (h : s.openRecord c = some i) : s.countOpen c f = s.onRec i (Record.count f) := by
  simp only [State.countOpen, h]

theorem State.syncLoss_of_none (s : State) (c : Port) (h : s.openRecord c = none) :
    s.syncLoss c = s.onSync c Synchroniser.seek := by
  simp only [State.syncLoss, s.countOpen_of_none c _ h]

theorem State.syncLoss_of_some (s : State) (c : Port) (i : RecIx) (h : s.openRecord c = some i) :
    s.syncLoss c = State.onSync c Synchroniser.seek
      (s.onRec i (Record.count fun n => { n with skipped := satAdd n.skipped (s.chan c).sync.window.length })) := by
  simp only [State.syncLoss, s.countOpen_of_some c _ i h]

/-! ### The frame waiting timer (R26) -/

theorem Timer.due_iff (t : Timer) : Timer.due t = true ↔ t = some 0 := by simp [Timer.due]

theorem State.waitingExpiry_of_not_due (s : State) (c : Port) (h : (s.chan c).port.waitTimer ≠ some 0) :
    s.waitingExpiry c = s := by
  simp only [State.waitingExpiry, Timer.due_iff, if_neg h]

theorem State.waitingExpiry_of_live (s : State) (c : Port) (due : (s.chan c).port.waitTimer = some 0)
    (live : (s.chan c).port.feed = .live) :
    s.waitingExpiry c =
      State.declareLost c .silent (s.onPort c fun p => { p with waitTimer := none, interrupted := p.rx }) := by
  simp only [State.waitingExpiry, Timer.due_iff, if_pos due, State.onPort_chan, if_pos live, State.onPort_onPort]

theorem State.waitingExpiry_of_lost (s : State) (c : Port) (due : (s.chan c).port.waitTimer = some 0)
    (lost : (s.chan c).port.feed ≠ .live) :
    s.waitingExpiry c = s.onPort c fun p => { p with waitTimer := none } := by
  simp only [State.waitingExpiry, Timer.due_iff, if_pos due, State.onPort_chan, if_neg lost]

/-! ### The receiver that lane bytes find (R22, R26; log 31) -/

theorem Receiver.endedBy_header (got : List Byte) (b : Byte) :
    (Receiver.header got).endedBy [b] = true ↔ got.length = 15 ∧ headerGood (got ++ [b]) = false := by
  simp [Receiver.endedBy]

theorem Receiver.endedBy_payload (h : Header) (got : List Byte) (b : Byte) :
    (Receiver.payload h got).endedBy [b] = true ↔ got.length = h.length + 3 := by
  simp only [Receiver.endedBy, beq_iff_eq]
  omega

theorem FeedPort.receiverFor_apart (bytes : List Byte) (p : FeedPort) :
    p.receiverFor { bytes := bytes, together := false } = p.rx := by
  simp [FeedPort.receiverFor]

theorem FeedPort.receiverFor_of_ended (bytes : List Byte) (p : FeedPort) (hunts : p.rx = .hunt [])
    (ended : p.interrupted.endedBy bytes = true) :
    p.receiverFor { bytes := bytes, together := true } = p.interrupted := by
  simp [FeedPort.receiverFor, hunts, ended]

theorem FeedPort.receiverFor_of_not_ended (x : LaneBytes) (p : FeedPort) (h : ¬ p.interrupted.endedBy x.bytes = true) :
    p.receiverFor x = p.rx := by
  simp [FeedPort.receiverFor, h]

theorem State.hearLane_of_receives (s : State) (c : Port) (x : LaneBytes) (h : (s.chan c).port.receives = true) :
    s.hearLane c x =
      (s.onPort c fun p => { p with rx := p.receiverFor x, interrupted := .hunt [] }).laneBytes c x.bytes := by
  simp only [State.hearLane, if_pos h]

/-- A byte that ends what the expiry interrupted is heard as if the interrupted receiver still stood. -/
theorem State.hearLane_of_ended (s : State) (c : Port) (bytes : List Byte) (heard : (s.chan c).port.receives = true)
    (hunts : (s.chan c).port.rx = .hunt []) (ended : (s.chan c).port.interrupted.endedBy bytes = true) :
    s.hearLane c { bytes := bytes, together := true } =
      State.hearLane c { bytes := bytes, together := false }
        (s.onPort c fun p => { p with rx := p.interrupted, interrupted := .hunt [] }) := by
  have heard' : ((s.onPort c fun p => { p with rx := p.interrupted, interrupted := .hunt [] }).chan c).port.receives
      = true := by
    rw [State.onPort_chan]; exact heard
  rw [s.hearLane_of_receives c _ heard, State.hearLane_of_receives _ c _ heard', State.onPort_onPort]
  congr 1
  apply State.onPort_congr
  simp only [FeedPort.receiverFor_of_ended bytes _ hunts ended, FeedPort.receiverFor_apart]

/-- Any other byte is heard by the receiver as it stands. -/
theorem State.hearLane_of_not_ended (s : State) (c : Port) (bytes : List Byte)
    (h : ¬ (s.chan c).port.interrupted.endedBy bytes = true) (together : Bool) :
    s.hearLane c { bytes := bytes, together := together } = s.hearLane c { bytes := bytes, together := false } := by
  have same : s.onPort c (fun p =>
        { p with rx := p.receiverFor { bytes := bytes, together := together }, interrupted := .hunt [] }) =
      s.onPort c (fun p =>
        { p with rx := p.receiverFor { bytes := bytes, together := false }, interrupted := .hunt [] }) := by
    apply State.onPort_congr
    simp only [FeedPort.receiverFor_of_not_ended ⟨bytes, together⟩ (s.chan c).port h, FeedPort.receiverFor_apart]
  simp only [State.hearLane, same]

/-- A hunting receiver that a byte does not complete the marker for keeps the last three bytes (R16). -/
theorem State.laneByte_hunting (s : State) (c : Port) (seen : List Byte) (b : Byte)
    (heard : (s.chan c).port.receives = true) (hunts : (s.chan c).port.rx = .hunt seen)
    (no : seen ++ [b] ≠ syncMarker) :
    s.laneByte c b =
      s.onPort c fun p => { p with rx := .hunt ((seen ++ [b]).drop ((seen ++ [b]).length - 3)) } := by
  simp only [State.laneByte, heard, hunts, if_neg no, Bool.not_true, Bool.false_eq_true, if_false]

/-- A receiver that hunts with no byte seen keeps the one byte that comes. -/
theorem State.hearLane_hunting (s : State) (c : Port) (b : Byte) (heard : (s.chan c).port.receives = true)
    (hunts : (s.chan c).port.rx = .hunt []) :
    s.hearLane c { bytes := [b], together := false } =
      s.onPort c fun p => { p with rx := .hunt [b], interrupted := .hunt [] } := by
  rw [s.hearLane_of_receives c _ heard]
  simp only [State.laneBytes, List.foldl_cons, List.foldl_nil, FeedPort.receiverFor_apart]
  rw [State.laneByte_hunting _ c [] b (by rw [State.onPort_chan]; exact heard) (by rw [State.onPort_chan]; exact hunts)
    (by simp [syncMarker]), State.onPort_onPort]
  rfl

/-! ### Presence (R23 to R25) -/

theorem State.samplePresence_of_same (s : State) (level : Bool) (c : Port) (h : level = (s.chan c).port.debPresence) :
    s.samplePresence level c = s.onPort c fun p => { p with rawPresence := level, presenceRun := 0 } := by
  simp only [State.samplePresence, if_pos h]

theorem State.samplePresence_of_run (s : State) (level : Bool) (c : Port) (h : level ≠ (s.chan c).port.debPresence)
    (run : (s.chan c).port.presenceRun + 1 < 3) :
    s.samplePresence level c =
      s.onPort c fun p => { p with rawPresence := level, presenceRun := p.presenceRun + 1 } := by
  simp only [State.samplePresence, if_neg h, if_pos run]

/-- The third sample in a row that differs changes the debounced presence, and a fall is handled. -/
theorem State.samplePresence_of_change (s : State) (level : Bool) (c : Port) (h : level ≠ (s.chan c).port.debPresence)
    (run : 3 ≤ (s.chan c).port.presenceRun + 1) :
    s.samplePresence level c =
      let changed := s.onPort c fun p => { p with rawPresence := level, presenceRun := 0, debPresence := level }
      if level = true then changed else changed.presenceFall c := by
  simp only [State.samplePresence, if_neg h, if_neg (Nat.not_lt.mpr run)]

theorem State.presenceFall_of_unheld (s : State) (c : Port)
    (h : (s.chan c).port.gating = false ∨ (s.chan c).port.opened = false) : s.presenceFall c = s := by
  have no : ¬ ((s.chan c).port.gating = true ∧ (s.chan c).port.opened = true) := by
    rcases h with h | h <;> simp [h]
  simp only [State.presenceFall, if_neg no]

theorem State.presenceFall_of_held (s : State) (c : Port) (gating : (s.chan c).port.gating = true)
    (opened : (s.chan c).port.opened = true) :
    s.presenceFall c = State.declareLost c .carrier (s.onPort c fun p => { p with rx := .hunt [] }) := by
  simp only [State.presenceFall, if_pos (And.intro gating opened)]

/-! ### The release of a placement (R44, R47) -/

theorem State.openRecord_onSync (s : State) (c d : Port) (f : Synchroniser → Synchroniser) :
    (s.onSync c f).openRecord d = s.openRecord d := by
  simp only [State.openRecord, State.onSync_record]

theorem State.releasePlacement_of_none (s : State) (c : Port) (h : s.openRecord c = none) :
    s.releasePlacement c = s.onSync c fun _ => (s.chan c).sync.release.sync := by
  simp only [State.releasePlacement, State.openRecord_onSync, h]

theorem State.releasePlacement_of_some (s : State) (c : Port) (i : RecIx) (h : s.openRecord c = some i) :
    s.releasePlacement c = State.onRec i
      (Record.count fun n => { n with drops := satAdd n.drops (s.chan c).sync.release.drops })
      (State.appendPlacement c i (s.chan c).sync.release.placement
        (s.onSync c fun _ => (s.chan c).sync.release.sync)) := by
  simp only [State.releasePlacement, State.openRecord_onSync, h]

/-! ### Hold-over, boundary and placement (R13, R44, R70) -/

theorem Channel.countsHoldOver_iff (x : Channel) :
    x.countsHoldOver = true ↔ x.take.st = .recording ∧ x.port.feed ≠ .live := by
  simp [Channel.countsHoldOver]

theorem State.boundaryAndPlacement_eq (s : State) (preset : Bool) (c : Port) :
    s.boundaryAndPlacement preset c = State.releasePlacement c
      (if preset = true ∨ s.ref.count.toNat % (s.chan c).take.segLen = 0 then s.boundary c else s) := by
  simp only [State.boundaryAndPlacement, State.isBoundary, Bool.or_eq_true, beq_iff_eq]

theorem State.takeTick_of_idle (s : State) (preset : Bool) (c : Port) (h : (s.chan c).take.st = .idle) :
    s.takeTick preset c = s := by
  simp only [State.takeTick, if_pos h]

theorem State.takeTick_of_uncounted (s : State) (preset : Bool) (c : Port) (h : (s.chan c).take.st ≠ .idle)
    (n : ¬ (s.chan c).countsHoldOver = true) : s.takeTick preset c = s.boundaryAndPlacement preset c := by
  simp only [State.takeTick, if_neg h, if_neg n]

/-- A counted tick: the expiry is settled before the boundary when the counter passes k (R70, R71). -/
theorem State.takeTick_of_counted (s : State) (preset : Bool) (c : Port) (h : (s.chan c).take.st = .recording)
    (lost : (s.chan c).port.feed ≠ .live) :
    s.takeTick preset c =
      let counted := s.onTake c fun t => { t with holdOver := t.holdOver + 1 }
      State.boundaryAndPlacement preset c
        (if (s.chan c).take.k < (s.chan c).take.holdOver + 1 then counted.holdOverExpire c else counted) := by
  have busy : (s.chan c).take.st ≠ .idle := by simp [h]
  have counts := (Channel.countsHoldOver_iff _).2 ⟨h, lost⟩
  simp only [State.takeTick, if_neg busy, if_pos counts, State.onTake_chan, gt_iff_lt]
  split <;> rfl

/-! ### The parts of a tick -/

/-- Erasing repeats leaves a list with none. -/
theorem nodup_eraseDups {α : Type} [BEq α] [LawfulBEq α] (l : List α) : l.eraseDups.Nodup := by
  match l with
  | [] => simp
  | a :: l =>
    rw [List.eraseDups_cons, List.nodup_cons]
    exact ⟨by simp, nodup_eraseDups _⟩
termination_by l.length
decreasing_by
  simp only [List.length_cons]
  exact Nat.lt_succ_of_le (List.length_filter_le _ _)

theorem mem_channelWork (part : TickPart) :
    part ∈ allPorts.flatMap channelParts ↔ ∃ c, part = .presence c ∨ part = .placement c ∨ part = .tally c := by
  simp [channelParts, mem_allPorts]

theorem State.tickTimers_counted (s : State) : TimersCounted s s.tickTimers where
  waiting c := s.tickTimers_chan c
  records i := s.tickTimers_record i
  outstanding k q n h := by rw [s.tickTimers_tag, h]; rfl
  others k h := by
    rw [s.tickTimers_tag]
    cases e : s.tag k with
    | outstanding q n => exact absurd e (h q n)
    | free => rfl
    | quarantined q => rfl
  rest := rfl

theorem State.houseTick_ref (s : State) (tick : TickInput) :
    (State.houseTick tick s).ref =
      { s.ref with count := s.ref.preset.getD (s.ref.count + 1#32), preset := none } :=
  (s.houseTick_keeps tick).ref

/-! ### Pulses (R2 to R8) -/

theorem State.pulse_of_running (s : State) (time : Nat) (tick : TickInput) (h : s.running = true) :
    s.pulse time tick = s.realPulse time tick := by
  simp only [State.pulse, if_pos h]

theorem State.engineNotice_eq (s : State) (cause : Cause) (reason : Byte) (n : HouseCount) (h : s.ref.count = n) :
    s.engineNotice cause reason = s.notice cause reason 0xFF#8 n := by
  rw [← h]; rfl

/-! ### The statements -/

/-- Settles O4: each reset table is read off the constants that `State.assertReset` is made of. -/
theorem powerOnResetResetsEveryBlock : Obligations.PowerOnResetResetsEveryBlock := by
  unfold Obligations.PowerOnResetResetsEveryBlock
  intro s
  refine ⟨s.assertReset, exec_powerOnReset s, rfl, fun c => ?port, fun c => ?sync, fun c => ?take, fun c => ?sel,
    s.assertReset_record, rfl, rfl, rfl, rfl, s.assertReset_tag, ?rest⟩
  case port => simp only [s.assertReset_chan, Channel.reset, FeedPort.reset, and_self]
  case sync => simp only [s.assertReset_chan, Channel.reset, Synchroniser.reset, and_self]
  case take => simp only [s.assertReset_chan, Channel.reset, TakeController.reset, and_self]
  case sel => simp only [s.assertReset_chan, Channel.reset, Selector.reset, and_self]
  case rest =>
    simp only [State.assertReset, State.reset, StoreLink.reset, CueLine.reset, StatusBlock.reset, and_self]

/-- Settles O8: the WAITING row of the pulse, with the count that every house tick leaves. -/
theorem firstPulseLocks : Obligations.FirstPulseLocks := by
  unfold Obligations.FirstPulseLocks
  intro s time tick running waiting
  refine ⟨?_, State.houseTick_ref _ tick⟩
  rw [exec_referencePulse, s.pulse_of_running time tick running]
  simp only [State.realPulse, waiting]

/-- Settles O53: PRESET acts for every addressing. -/
theorem presetTaken : Obligations.PresetTaken := by
  unfold Obligations.PresetTaken
  intro s m accepted enough
  rw [exec_preset]
  exact congrArg _ (s.command_of_acts 0x16#8 4 engineChannel _ m accepted enough)

/-- Settles O9: LOCKING and LOCKED measure a pulse alike, and the deadline is counted from the new capture. -/
theorem measuredPulseTicks : Obligations.MeasuredPulseTicks := by
  unfold Obligations.MeasuredPulseTicks
  intro s time start tick running measuring started _
  have measured : s.ref.interval time = max 1 (min 16777215 (time - start)) := by
    simp only [RefUnit.interval, started, Option.getD_some, clamp]
  rw [exec_referencePulse, s.pulse_of_running time tick running]
  rcases measuring with st | st <;>
    simp only [State.realPulse, st, RefUnit.capture, RefUnit.ticked, RefUnit.startDeadline, measured]

/-- Settles O10: the two rows of R8, parted by whether half a capture has passed. -/
theorem returnOfReference : Obligations.ReturnOfReference := by
  unfold Obligations.ReturnOfReference
  intro s time last tick running flywheel lastTick _
  have absorbs : s.ref.absorbs time = decide (2 * (time - last) < s.ref.cur) := by
    simp only [RefUnit.absorbs, lastTick, Option.getD_some]
  rw [exec_referencePulse, s.pulse_of_running time tick running]
  constructor
  · intro early
    rw [decide_eq_true early] at absorbs
    simp only [State.realPulse, flywheel, absorbs, if_true]
    rfl
  · intro later
    rw [decide_eq_false (Nat.not_lt.mpr later)] at absorbs
    simp only [State.realPulse, flywheel, absorbs, Bool.false_eq_true, if_false]
    exact congrArg _ (State.engineNotice_eq _ _ _ _ (by rw [State.houseTick_ref]; rfl))

/-- Settles O11: a deadline that has passed makes the entry tick, and a schedule that is due makes its own. -/
theorem lossOfReferenceAndFlywheel : Obligations.LossOfReferenceAndFlywheel := by
  unfold Obligations.LossOfReferenceAndFlywheel
  constructor
  · intro s time d tick locked deadline reached
    have passed : s.ref.deadlinePassed time = true := by simp [RefUnit.deadlinePassed, deadline, locked, reached]
    rw [exec_lossDeadlineExpiry]
    simp only [State.lossOfReference, if_pos passed]
    exact congrArg _ (State.engineNotice_eq _ _ _ _ (by rw [State.houseTick_ref]; rfl))
  · intro s time last tick flywheel scheduled lastTick reached
    have due : s.ref.flywheelDue time = true := by simp [RefUnit.flywheelDue, flywheel, scheduled, lastTick, reached]
    rw [exec_flywheelTick]
    simp only [State.flywheelStep, if_pos due, RefUnit.ticked]

/-- Settles O7: the frame of the tick, its parts in order, and each part by the cases of the channel it works on. -/
theorem houseTickMovesTheCount : Obligations.HouseTickMovesTheCount := by
  unfold Obligations.HouseTickMovesTheCount
  refine ⟨fun tick s => ?frame, fun tick s => ?parts, fun tick preset s => ?part, fun s c level => ?sample,
    fun s c preset => ?take, fun s c => ⟨s.releasePlacement_of_none c, s.releasePlacement_of_some c⟩,
    fun s c => ?tally⟩
  case frame =>
    have kept := s.houseTick_keeps tick
    refine ⟨fun absent => ?_, fun v present => ?_, kept.status, kept.storeHalt, kept.lineOut⟩
    · rw [State.houseTick_ref, absent, Option.getD_none]
    · rw [State.houseTick_ref, present, Option.getD_some]
  case parts =>
    refine ⟨nodup_eraseDups _, fun c => ?_, fun part h => ?_, _, State.tickTimers_counted _, rfl⟩
    · simp only [mem_tickParts, mem_channelWork]
      exact ⟨.inr ⟨c, .inl rfl⟩, .inr ⟨c, .inr (.inl rfl)⟩, .inr ⟨c, .inr (.inr rfl)⟩⟩
    · rwa [mem_tickParts, mem_channelWork] at h
  case part =>
    exact ⟨fun c => ⟨rfl, rfl, rfl, rfl, fun b => rfl⟩, fun i => ⟨rfl, rfl, rfl⟩, fun k => rfl, rfl⟩
  case sample =>
    refine ⟨s.samplePresence_of_same level c, s.samplePresence_of_run level c, fun differs run unheld => ?_,
      fun differs run falls gating opened => ?_⟩
    · rw [s.samplePresence_of_change level c differs run]
      rcases unheld with rise | unheld
      · simp only [rise, if_true]
      · dsimp only
        rw [State.presenceFall_of_unheld _ c (by rw [State.onPort_chan]; exact unheld), ite_self]
    · subst falls
      rw [s.samplePresence_of_change false c differs run]
      simp only [Bool.false_eq_true, if_false]
      rw [State.presenceFall_of_held _ c (by rw [State.onPort_chan]; exact gating)
        (by rw [State.onPort_chan]; exact opened)]
  case take =>
    refine ⟨s.takeTick_of_idle preset c, fun busy quiet => ?_, fun recording lost within => ?_,
      fun recording lost past => ?_⟩
    · have uncounted : ¬ (s.chan c).countsHoldOver = true := by
        rwa [Channel.countsHoldOver_iff, not_and_or, not_not]
      rw [s.takeTick_of_uncounted preset c busy uncounted, State.boundaryAndPlacement_eq]
    · rw [s.takeTick_of_counted preset c recording lost]
      simp only [if_neg (Nat.not_lt.mpr within), State.boundaryAndPlacement_eq]
    · rw [s.takeTick_of_counted preset c recording lost]
      simp only [if_pos past, State.boundaryAndPlacement_eq]
      rfl
  case tally =>
    simp only [State.tallyStep, tallyLevel_eq]
    apply State.onPort_congr
    cases (s.chan c).port.tally <;> rfl

/-- Settles O16: the expiry by the state of the feed, the receiver that a byte together with it finds, and what a
declaration and a loss do. -/
theorem frameWaitingTimerExpires : Obligations.FrameWaitingTimerExpires := by
  unfold Obligations.FrameWaitingTimerExpires
  refine ⟨fun s c due => ⟨fun live => ?_, fun lost => ?_⟩, fun s c early => ?_, fun s c b heard hunts => ?_,
    fun s c reason => ⟨s.declareLost_of_live c reason, s.declareLost_of_lost c reason⟩,
    fun s c => ⟨s.syncLoss_of_none c, s.syncLoss_of_some c⟩⟩
  · rw [exec_frameWaitingTimerExpiry, s.waitingExpiry_of_live c due live]
  · rw [exec_frameWaitingTimerExpiry, s.waitingExpiry_of_lost c due lost]
  · rw [exec_frameWaitingTimerExpiry, s.waitingExpiry_of_not_due c early]
  · simp only [exec_headerJudged, exec_frameComplete]
    refine ⟨fun got cut full bad => ?_, fun h got cut full => ?_, fun got cut other => ?_,
      fun h got cut other => ?_, ?_⟩
    · rw [s.hearLane_of_ended c [b] heard hunts (cut ▸ (Receiver.endedBy_header got b).2 ⟨full, bad⟩)]
    · rw [s.hearLane_of_ended c [b] heard hunts (cut ▸ (Receiver.endedBy_payload h got b).2 full)]
    · have unended : ¬ (got.length = 15 ∧ headerGood (got ++ [b]) = false) := by
        rwa [not_and_or, Bool.not_eq_false]
      rw [s.hearLane_of_not_ended c [b] (cut ▸ mt (Receiver.endedBy_header got b).1 unended)]
    · rw [s.hearLane_of_not_ended c [b] (cut ▸ mt (Receiver.endedBy_payload h got b).1 other)]
    · rw [s.hearLane_hunting c b heard hunts]

end Sys2Proof.Machine
end

section
/-! PROOFS. Ports, jobs and selectors: what each operation leaves of the job queue's bound, of the ports that are OPEN exactly
outside IDLE, and of the selectors' ranges. Three relations between a state and what an operation makes of it carry the
proof, each weaker than the one before: `Aside`, `Steady` and `Orderly`. -/

namespace Sys2Proof.Machine

/-! ### What an operation keeps -/

/-- The quantiser bounds are in order and the fullness lies within the bucket (R58, R109). -/
def Selector.InRange (x : Selector) : Prop := x.qMin ≤ x.qMax ∧ x.fullness ≤ x.bucket

/-- The port is OPEN exactly outside IDLE (R15). -/
def Channel.PortFollows (x : Channel) : Prop := x.port.opened = true ↔ x.take.st ≠ .idle

/-- An engine with nothing to do for its channels: before start-up has ended it is so (R170, R174). -/
structure Asleep (s : State) : Prop where
  disabled : s.cue.enabled = false
  noJobs : s.browse.jobs = []
  channels : ∀ c, (s.chan c).take.st = .idle ∧ (s.chan c).sel.fullness = 0

/-- An operation that touches no channel and no job, nor whether the engine runs and its interface is enabled. -/
structure Aside (s t : State) : Prop where
  running : t.running = s.running
  enabled : t.cue.enabled = s.cue.enabled
  jobs : t.browse.jobs = s.browse.jobs
  chans : t.chans = s.chans

/-- An operation that keeps the job queue within its bound, and each port and each selector in order. -/
structure Orderly (s t : State) : Prop where
  running : t.running = s.running
  enabled : t.cue.enabled = s.cue.enabled
  jobs : t.browse.jobs.length ≤ max s.browse.jobs.length jobCapacity
  ports : ∀ c, (s.chan c).PortFollows → (t.chan c).PortFollows
  sels : ∀ c, (s.chan c).sel.InRange → (t.chan c).sel.InRange

/-- An orderly operation that does not wake the engine. -/
structure Steady (s t : State) : Prop extends Orderly s t where
  asleep : Asleep s → Asleep t

theorem Aside.refl (s : State) : Aside s s := ⟨rfl, rfl, rfl, rfl⟩

theorem Aside.trans {s t u : State} (h : Aside s t) (k : Aside t u) : Aside s u :=
  ⟨k.running.trans h.running, k.enabled.trans h.enabled, k.jobs.trans h.jobs, k.chans.trans h.chans⟩

theorem Aside.after {s t u : State} (k : Aside t u) (h : Aside s t) : Aside s u := h.trans k

theorem Aside.chan {s t : State} (h : Aside s t) (c : Port) : t.chan c = s.chan c := by
  simp only [State.chan, h.chans]

theorem Aside.steady {s t : State} (h : Aside s t) : Steady s t where
  running := h.running
  enabled := h.enabled
  jobs := by rw [h.jobs]; exact le_max_left _ _
  ports c := by rw [h.chan]; exact id
  sels c := by rw [h.chan]; exact id
  asleep a := ⟨h.enabled.trans a.disabled, h.jobs.trans a.noJobs, fun c => by rw [h.chan]; exact a.channels c⟩

theorem Aside.orderly {s t : State} (h : Aside s t) : Orderly s t := h.steady.toOrderly

theorem Orderly.trans {s t u : State} (h : Orderly s t) (k : Orderly t u) : Orderly s u where
  running := k.running.trans h.running
  enabled := k.enabled.trans h.enabled
  jobs := k.jobs.trans (max_le h.jobs (le_max_right _ _))
  ports c := k.ports c ∘ h.ports c
  sels c := k.sels c ∘ h.sels c

theorem Orderly.after {s t u : State} (k : Orderly t u) (h : Orderly s t) : Orderly s u := h.trans k

theorem Steady.refl (s : State) : Steady s s := (Aside.refl s).steady

theorem Steady.trans {s t u : State} (h : Steady s t) (k : Steady t u) : Steady s u :=
  ⟨h.toOrderly.trans k.toOrderly, k.asleep ∘ h.asleep⟩

theorem Steady.after {s t u : State} (k : Steady t u) (h : Steady s t) : Steady s u := h.trans k

/-- What only an engine that is awake does may be any orderly operation. -/
theorem Orderly.steady_of_awake {s t : State} (h : Orderly s t) (awake : ¬ Asleep s) : Steady s t :=
  ⟨h, fun a => absurd a awake⟩

theorem not_asleep_of_enabled {s : State} (h : s.cue.enabled = true) : ¬ Asleep s := fun a => by
  rw [a.disabled] at h; cases h

theorem not_asleep_of_jobs {s : State} (h : s.browse.jobs ≠ []) : ¬ Asleep s := fun a => h a.noJobs

theorem not_asleep_of_busy {s : State} (c : Port) (h : (s.chan c).take.st ≠ .idle) : ¬ Asleep s :=
  fun a => h (a.channels c).1

/-- A fold keeps steady what each of its steps keeps steady. -/
theorem Steady.foldl {α : Type} {f : State → α → State} (h : ∀ s a, Steady s (f s a)) (l : List α) (s : State) :
    Steady s (l.foldl f s) := by
  induction l generalizing s with
  | nil => exact Steady.refl s
  | cons a l ih => exact (h s a).trans (ih _)

theorem Aside.foldl {α : Type} {f : State → α → State} (h : ∀ s a, Aside s (f s a)) (l : List α) (s : State) :
    Aside s (l.foldl f s) := by
  induction l generalizing s with
  | nil => exact Aside.refl s
  | cons a l ih => exact (h s a).trans (ih _)

variable (s : State)

/-! ### Updates of one channel -/

/-- A change of one channel is orderly when it keeps that channel's port and selector in order. -/
theorem State.setChan_orderly (c : Port) (x : Channel) (port : (s.chan c).PortFollows → x.PortFollows)
    (sel : (s.chan c).sel.InRange → x.sel.InRange) : Orderly s (s.setChan c x) where
  running := rfl
  enabled := rfl
  jobs := le_max_left _ _
  ports d := by
    rw [State.chan_setChan]
    split
    · rename_i e; exact e ▸ port
    · exact id
  sels d := by
    rw [State.chan_setChan]
    split
    · rename_i e; exact e ▸ sel
    · exact id

/-- It is steady when it does not take the channel out of IDLE or fill its budget either. -/
theorem State.setChan_steady (c : Port) (x : Channel) (port : (s.chan c).PortFollows → x.PortFollows)
    (sel : (s.chan c).sel.InRange → x.sel.InRange)
    (idle : (s.chan c).take.st = .idle ∧ (s.chan c).sel.fullness = 0 → x.take.st = .idle ∧ x.sel.fullness = 0) :
    Steady s (s.setChan c x) where
  toOrderly := s.setChan_orderly c x port sel
  asleep a := ⟨a.disabled, a.noJobs, fun d => by
    rw [State.chan_setChan]
    split
    · exact idle (a.channels c)
    · exact a.channels d⟩

theorem State.onPort_steady (c : Port) (f : FeedPort → FeedPort)
    (h : (f (s.chan c).port).opened = (s.chan c).port.opened) : Steady s (s.onPort c f) := by
  refine s.setChan_steady c _ (fun k => ?_) id id
  rw [Channel.PortFollows, h]
  exact k

theorem State.onSync_steady (c : Port) (f : Synchroniser → Synchroniser) : Steady s (s.onSync c f) :=
  s.setChan_steady c _ id id id

theorem State.onTake_steady (c : Port) (f : TakeController → TakeController)
    (h : (f (s.chan c).take).st = .idle ↔ (s.chan c).take.st = .idle) : Steady s (s.onTake c f) := by
  refine s.setChan_steady c _ (fun k => ?_) id fun k => ⟨h.2 k.1, k.2⟩
  rw [Channel.PortFollows, ne_eq, h]
  exact k

theorem State.onSel_steady (c : Port) (f : Selector → Selector)
    (range : (s.chan c).sel.InRange → (f (s.chan c).sel).InRange)
    (empty : (s.chan c).sel.fullness = 0 → (f (s.chan c).sel).fullness = 0) : Steady s (s.onSel c f) :=
  s.setChan_steady c _ id range fun k => ⟨k.1, empty k.2⟩

theorem State.onSel_orderly (c : Port) (f : Selector → Selector)
    (range : (s.chan c).sel.InRange → (f (s.chan c).sel).InRange) : Orderly s (s.onSel c f) :=
  s.setChan_orderly c _ id range

theorem State.retally_steady (c : Port) : Steady s (s.retally c) := by
  unfold State.retally
  dsimp only
  split
  · exact Steady.refl s
  · exact s.onPort_steady c _ rfl

theorem State.tallyStep_steady (c : Port) : Steady s (s.tallyStep c) := s.onPort_steady c _ rfl

/-! ### Records, tags and messages -/

theorem State.onRec_aside (i : RecIx) (f : Record → Record) : Aside s (s.onRec i f) := ⟨rfl, rfl, rfl, rfl⟩
theorem State.setTag_aside (k : TagIx) (x : TagState) : Aside s (s.setTag k x) := ⟨rfl, rfl, rfl, rfl⟩

/-- A message that joins the queue leaves the interface enabled or disabled as it is (R167). -/
theorem CueLine.join_enabled (swap : Bool) (m : Message) (l : CueLine) : (l.join swap m).enabled = l.enabled := by
  unfold CueLine.join
  dsimp only
  split
  · rfl
  · split
    · split <;> rfl
    · rfl

theorem State.transmit_aside (m : Message) : Aside s (s.transmit m) := ⟨rfl, CueLine.join_enabled _ _ _, rfl, rfl⟩

theorem State.reply_aside (d : Station) (k : ReplyCode) (a : Bool) (c b : Byte) : Aside s (s.reply d k a c b) :=
  s.transmit_aside _

theorem State.notice_aside (k : Cause) (r c : Byte) (n : HouseCount) : Aside s (s.notice k r c n) := by
  unfold State.notice
  split
  · exact s.transmit_aside _
  · exact Aside.refl s

theorem State.engineNotice_aside (k : Cause) (r : Byte) : Aside s (s.engineNotice k r) := s.notice_aside _ _ _ _
theorem State.channelNotice_aside (k : Cause) (r : Byte) (c : Port) : Aside s (s.channelNotice k r c) :=
  s.notice_aside _ _ _ _
theorem State.takeEnd_aside (r : EndReason) (c : Port) : Aside s (s.takeEnd r c) := s.channelNotice_aside _ _ _
theorem State.freeRecord_aside (i : RecIx) : Aside s (s.freeRecord i) := ⟨rfl, rfl, rfl, rfl⟩

/-! ### Staging pool -/

theorem State.evict_aside (i : RecIx) : Aside s (s.evict i) :=
  Aside.after (State.channelNotice_aside _ _ _ _) ⟨rfl, rfl, rfl, rfl⟩

theorem State.lowMarkTest_aside (fuel : Nat) : Aside s (s.lowMarkTest fuel) := by
  induction fuel generalizing s with
  | zero => exact Aside.refl s
  | succ n ih =>
    unfold State.lowMarkTest
    split
    · split
      · exact (s.evict_aside _).trans (ih _)
      · exact Aside.refl s
    · exact Aside.refl s

theorem State.takePage_aside (i : RecIx) (l : PageList) (t : State) (h : s.takePage i l = some t) : Aside s t := by
  unfold State.takePage at h
  split at h
  · cases h
  · cases h
    exact Aside.after (State.lowMarkTest_aside _ _) ⟨rfl, rfl, rfl, rfl⟩

theorem State.takePages_aside (i : RecIx) (l : PageList) (n : Nat) : Aside s (s.takePages i l n).1 := by
  induction n generalizing s with
  | zero => exact Aside.refl s
  | succ n ih =>
    unfold State.takePages
    split
    · exact Aside.refl s
    · rename_i t h
      exact (s.takePage_aside i l t h).trans (ih t)

theorem State.giveBack_aside (i : RecIx) (l : PageList) (n : Nat) : Aside s (s.giveBack i l n) := ⟨rfl, rfl, rfl, rfl⟩

theorem State.requestPages_aside (i : RecIx) (l : PageList) (n : Nat) : Aside s (s.requestPages i l n).1 := by
  unfold State.requestPages
  dsimp only
  split
  · exact Aside.refl s
  · have h := s.takePages_aside i l n
    split
    · rename_i t e; rw [e] at h; exact h
    · rename_i t e; rw [e] at h; exact h.trans (State.giveBack_aside _ _ _ _)

/-! ### Store link -/

theorem State.issueUpTo_aside (fuel : Nat) : Aside s (s.issueUpTo fuel) := by
  induction fuel generalizing s with
  | zero => exact Aside.refl s
  | succ n ih =>
    unfold State.issueUpTo
    split
    · split
      · exact Aside.after (ih _) ⟨rfl, rfl, rfl, rfl⟩
      · exact Aside.refl s
    · exact Aside.refl s

theorem State.issue_aside : Aside s s.issue := by
  unfold State.issue
  split
  · exact Aside.refl s
  · exact s.issueUpTo_aside 16

theorem State.joinWriteQueue_aside (i : RecIx) : Aside s (s.joinWriteQueue i) := by
  unfold State.joinWriteQueue
  exact Aside.after (State.issue_aside _) ⟨rfl, rfl, rfl, rfl⟩

theorem State.leaveWriteQueue_aside (i : RecIx) : Aside s (s.leaveWriteQueue i) := ⟨rfl, rfl, rfl, rfl⟩

theorem State.settleFailed_aside (i : RecIx) : Aside s (s.settleFailed i) := by
  unfold State.settleFailed
  split
  · exact (s.transmit_aside _).trans ⟨rfl, rfl, rfl, rfl⟩
  · exact Aside.refl s

theorem State.haltStore_aside (r : Byte) : Aside s (s.haltStore r) := by
  unfold State.haltStore
  split
  · exact Aside.after (State.engineNotice_aside _ _ _) ⟨rfl, rfl, rfl, rfl⟩
  · exact Aside.refl s

theorem State.countStray_aside : Aside s s.countStray := ⟨rfl, rfl, rfl, rfl⟩

theorem State.ackOk_aside (i : RecIx) (ref : PageRef) : Aside s (s.ackOk i ref) := by
  unfold State.ackOk
  split
  · exact s.settleFailed_aside i
  · split
    · exact (s.transmit_aside _).trans ⟨rfl, rfl, rfl, rfl⟩
    · exact s.onRec_aside i _

theorem State.ackFull_aside (i : RecIx) (ref : PageRef) : Aside s (s.ackFull i ref) := by
  unfold State.ackFull
  dsimp only
  split
  · exact (s.settleFailed_aside i).trans (State.haltStore_aside _ _)
  · exact (s.onRec_aside i _).trans (State.haltStore_aside _ _)

theorem State.ackFault_aside (i : RecIx) : Aside s (s.ackFault i) := by
  unfold State.ackFault
  split
  · exact s.settleFailed_aside i
  · exact (s.onRec_aside i _).trans (State.settleFailed_aside _ i)

theorem State.ackStatus_aside (status : Byte) (i : RecIx) (ref : PageRef) : Aside s (s.ackStatus status i ref) := by
  unfold State.ackStatus
  split
  · exact s.ackOk_aside i ref
  · split
    · exact s.ackFull_aside i ref
    · exact s.ackFault_aside i

theorem State.acknowledge_aside (tag status : Byte) : Aside s (s.acknowledge tag status) := by
  have tagged : ∀ k, Aside s (s.ackTag k status) := by
    intro k
    unfold State.ackTag
    split
    · exact ((s.setTag_aside k _).trans (State.ackStatus_aside _ _ _ _)).trans (State.issue_aside _)
    · exact ((s.setTag_aside k _).trans (State.countStray_aside _)).trans (State.issue_aside _)
    · exact s.countStray_aside
  unfold State.acknowledge
  split
  · split
    · split
      · exact s.countStray_aside
      · exact tagged _
    · exact s.countStray_aside
  · exact Aside.refl s

theorem State.storeExpiry_aside (k : TagIx) : Aside s (s.storeExpiry k) := by
  unfold State.storeExpiry
  split
  · split
    · exact (s.setTag_aside k _).trans (State.ackFault_aside _ _)
    · exact Aside.refl s
  · exact Aside.refl s
  · exact Aside.refl s

theorem State.clearExpiry_aside : Aside s s.clearExpiry := by
  unfold State.clearExpiry
  split <;> exact ⟨rfl, rfl, rfl, rfl⟩

theorem State.haltAssert_aside : Aside s s.haltAssert := by
  have level : Aside s { s with storeHalt := true } := ⟨rfl, rfl, rfl, rfl⟩
  unfold State.haltAssert
  dsimp only
  split
  · exact level.trans (State.haltStore_aside _ _)
  · exact level

theorem State.clearedReceived_aside : Aside s s.clearedReceived := by
  unfold State.clearedReceived
  split
  · split
    · exact Aside.after (State.issue_aside _) ⟨rfl, rfl, rfl, rfl⟩
    · exact s.countStray_aside
  · exact Aside.refl s

/-! ### Segments -/

theorem State.countOpen_aside (c : Port) (f : Counts → Counts) : Aside s (s.countOpen c f) := by
  unfold State.countOpen
  split
  · exact s.onRec_aside _ _
  · exact Aside.refl s

theorem State.closeComplete_aside (i : RecIx) : Aside s (s.closeComplete i) := by
  unfold State.closeComplete
  dsimp only
  split
  · exact ((s.onRec_aside i _).trans (State.transmit_aside _ _)).trans (State.freeRecord_aside _ _)
  · split
    · exact ((s.onRec_aside i _).trans (State.transmit_aside _ _)).trans (State.onRec_aside _ _ _)
    · exact ((s.onRec_aside i _).trans (State.transmit_aside _ _)).trans (State.joinWriteQueue_aside _ _)

theorem State.closeRecord_aside (torn : Bool) (i : RecIx) : Aside s (s.closeRecord torn i) := by
  unfold State.closeRecord
  dsimp only
  split
  · exact (s.onRec_aside i _).trans (State.closeComplete_aside _ _)
  · exact (s.onRec_aside i _).trans (State.onRec_aside _ _ _)

theorem State.closeOpen_aside (torn : Bool) (c : Port) : Aside s (s.closeOpen torn c) := by
  unfold State.closeOpen
  split
  · exact s.closeRecord_aside torn _
  · exact Aside.refl s

theorem State.overrun_steady (r : Byte) (c : Port) : Steady s (s.overrun r c) :=
  (s.onTake_steady c _ Iff.rfl).trans (State.channelNotice_aside _ _ _ _).steady

theorem State.openSegment_steady (c : Port) (key : Key) : Steady s (s.openSegment c key) := by
  unfold State.openSegment
  dsimp only
  split
  · exact s.overrun_steady _ c
  · split
    · exact (s.onRec_aside _ _).steady
    · split
      · exact ((s.evict_aside _).trans (State.onRec_aside _ _ _)).steady
      · exact s.overrun_steady _ c

/-! ### Browse Unit -/

theorem State.startCoder_aside : Aside s s.startCoder := by
  unfold State.startCoder
  split
  · exact ⟨rfl, rfl, rfl, rfl⟩
  · exact Aside.refl s

theorem State.appendEntry_aside (i : RecIx) (e : BrowseEntry) : Aside s (s.appendEntry i e) := s.onRec_aside i _

theorem State.countSkip_steady (c : Port) : Steady s (s.countSkip c) := s.onSel_steady c _ id id

/-- A job joins only a queue that is short of its bound (R102, R103). -/
theorem State.selectPresent_orderly (c : Port) (i : RecIx) (o n : Nat) : Orderly s (s.selectPresent c i o n) := by
  unfold State.selectPresent
  dsimp only
  split
  · rename_i room
    refine Orderly.after (State.startCoder_aside _).orderly ⟨rfl, rfl, ?_, fun _ => id, fun _ => id⟩
    exact le_max_of_le_right (by simpa [State.appendEntry] using room)
  · exact ((s.appendEntry_aside i _).steady.trans (State.countSkip_steady _ _)).toOrderly

theorem State.offer_orderly (c : Port) (i : RecIx) (f : Option (Nat × Nat)) : Orderly s (s.offer c i f) := by
  unfold State.offer
  dsimp only
  split
  · split
    · exact (s.onSel_steady c _ id id).toOrderly.trans (State.selectPresent_orderly _ _ _ _ _)
    · exact ((s.onSel_steady c _ id id).trans (State.appendEntry_aside _ _ _).steady).toOrderly
  · exact (s.onSel_steady c _ id id).toOrderly

/-- A skipped frame drains the budget (R109, R110). -/
theorem State.settleSkip_steady (j : Job) : Steady s (s.settleSkip j) := by
  have entry : Steady s (s.setEntry j.record j.entry .skip) := (s.onRec_aside _ _).steady
  unfold State.settleSkip
  refine Steady.after (State.onSel_steady _ j.channel _ (fun range => ?_) fun empty => ?_)
    (entry.trans (State.countSkip_steady _ j.channel))
  · exact ⟨range.1, (Nat.sub_le _ _).trans range.2⟩
  · exact Nat.sub_eq_zero_of_le (empty.le.trans (Nat.zero_le _))

/-- A frame is kept only where its size fits into the bucket once a target has drained (R109). -/
theorem State.settleKeep_orderly (j : Job) (coded : List Byte)
    (fits : (s.chan j.channel).sel.fullness + coded.length ≤
      (s.chan j.channel).sel.bucket + (s.chan j.channel).sel.target) :
    Orderly s (s.settleKeep j coded) := by
  have request := s.requestPages_aside j.record .browse
    (pagesFor ((s.record j.record).brwBytes + coded.length) - (s.record j.record).brwPages.length)
  unfold State.settleKeep
  dsimp only
  split
  · rename_i t e
    rw [e] at request
    rw [← request.chan] at fits
    refine Orderly.after (State.onSel_orderly _ _ _ fun range => ⟨range.1, Nat.sub_le_iff_le_add.2 fits⟩) ?_
    exact Aside.orderly (Aside.trans request ⟨rfl, rfl, rfl, rfl⟩)
  · rename_i t e
    rw [e] at request
    exact request.orderly.trans (State.settleSkip_steady _ _).toOrderly

theorem State.settleJob_orderly (j : Job) (coded : List Byte) : Orderly s (s.settleJob j coded) := by
  unfold State.settleJob
  dsimp only
  split
  · exact (s.settleSkip_steady j).toOrderly
  · rename_i fits
    exact s.settleKeep_orderly j coded (Nat.not_lt.mp fits)

theorem State.nextJob_steady : Steady s s.nextJob := by
  refine Steady.after (State.startCoder_aside _).steady ⟨⟨rfl, rfl, ?_, fun _ => id, fun _ => id⟩, fun a => ?_⟩
  · exact le_max_of_le_left (by simp)
  · exact ⟨a.disabled, by simp [a.noJobs], a.channels⟩

theorem State.closeIfDrained_aside (i : RecIx) : Aside s (s.closeIfDrained i) := by
  unfold State.closeIfDrained
  split
  · exact s.closeComplete_aside i
  · exact Aside.refl s

/-- A completion needs a job, so an engine that is asleep has none to complete. -/
theorem State.complete_steady (coded : List Byte) : Steady s (s.complete coded) := by
  unfold State.complete
  split
  · rename_i j _ _ jobs
    split
    · exact s.nextJob_steady
    · refine Orderly.steady_of_awake ?_ (not_asleep_of_jobs (by simp [jobs]))
      exact (((s.settleJob_orderly j coded).trans (State.onRec_aside _ _ _).orderly).trans
        (State.nextJob_steady _).toOrderly).trans (State.closeIfDrained_aside _ _).orderly
  · exact Steady.refl s

theorem length_withdrawJobs_le (i : RecIx) (b : BrowseUnit) : (withdrawJobs i b).length ≤ b.jobs.length := by
  unfold withdrawJobs
  split
  · rename_i jobs
    rw [jobs, List.length_cons, List.length_cons]
    exact Nat.succ_le_succ (List.length_filter_le _ _)
  · exact List.length_filter_le _ _

theorem State.withdraw_steady (i : RecIx) : Steady s (s.withdraw i) where
  running := rfl
  enabled := rfl
  jobs := le_max_of_le_left (length_withdrawJobs_le i s.browse)
  ports _ := id
  sels _ := id
  asleep a := by
    have none := length_withdrawJobs_le i s.browse
    rw [a.noJobs] at none
    exact ⟨a.disabled, List.eq_nil_of_length_eq_zero (Nat.le_zero.mp none), a.channels⟩

theorem State.drainExpiry_steady (i : RecIx) : Steady s (s.drainExpiry i) :=
  Steady.after (State.closeComplete_aside _ _).steady
    (Steady.after (State.onSel_steady _ _ _ id id)
      ((s.withdraw_steady i).trans (State.onRec_aside _ _ _).steady))

theorem State.takeDrain_steady (i : RecIx) : Steady s (s.takeDrain i) := by
  unfold State.takeDrain
  split
  · exact s.drainExpiry_steady i
  · exact Steady.refl s

/-! ### Copy arbitration -/

theorem State.windowExpiry_aside (i : RecIx) : Aside s (s.windowExpiry i) := by
  unfold State.windowExpiry State.decideRecord
  dsimp only
  split
  · split
    · exact (s.onRec_aside i _).trans (State.joinWriteQueue_aside _ _)
    · exact (s.onRec_aside i _).trans (State.onRec_aside _ _ _)
  · exact Aside.refl s

theorem State.takeOver_aside (i : RecIx) : Aside s (s.takeOver i) := by
  unfold State.takeOver
  exact ((((s.onRec_aside i _).trans (State.transmit_aside _ _)).trans (State.onRec_aside _ _ _)).trans
    (State.joinWriteQueue_aside _ _)).trans ⟨rfl, rfl, rfl, rfl⟩

theorem State.commitExpiry_aside (i : RecIx) : Aside s (s.commitExpiry i) := by
  unfold State.commitExpiry
  split
  · exact s.takeOver_aside i
  · exact Aside.refl s

theorem State.peerReport_aside (key : Key) (p : Peer) : Aside s (s.peerReport key p) := by
  unfold State.peerReport
  dsimp only
  split
  · exact ⟨rfl, rfl, rfl, rfl⟩
  · split
    · exact Aside.refl s
    · split
      · exact s.onRec_aside _ _
      · exact ⟨rfl, rfl, rfl, rfl⟩

theorem State.storedFor_aside (key : Key) : Aside s (s.storedFor key) := by
  unfold State.storedFor
  split
  · exact Aside.refl s
  · split
    · exact s.onRec_aside _ _
    · exact s.onRec_aside _ _
    · exact s.freeRecord_aside _
    · exact s.freeRecord_aside _
    · exact (s.leaveWriteQueue_aside _).trans (State.freeRecord_aside _ _)
    · exact Aside.refl s
    · exact Aside.refl s
    · exact Aside.refl s

theorem State.unstoredFor_aside (key : Key) (station : Station) : Aside s (s.unstoredFor key station) := by
  unfold State.unstoredFor
  dsimp only
  split
  · exact Aside.refl s
  · split
    · exact (s.onRec_aside _ _).trans (State.takeOver_aside _ _)
    · exact (s.onRec_aside _ _).trans (State.onRec_aside _ _ _)

theorem State.takeoverFor_aside (key : Key) (station : Station) : Aside s (s.takeoverFor key station) := by
  unfold State.takeoverFor
  split
  · exact Aside.refl s
  · exact s.onRec_aside _ _

theorem State.hearReport_aside (m : Heard) : Aside s (s.hearReport m) := by
  unfold State.hearReport
  split
  · exact s.peerReport_aside _ _
  · exact Aside.refl s

theorem State.hearStored_aside (m : Heard) : Aside s (s.hearStored m) := by
  unfold State.hearStored
  split
  · exact s.storedFor_aside _
  · exact Aside.refl s

theorem State.takeStored_aside (m : HeardStored) : Aside s (s.takeStored m) := by
  unfold State.takeStored
  split
  · exact (s.hearStored_aside _).trans (State.issue_aside _)
  · exact s.hearStored_aside _

theorem State.hearUnstored_aside (m : Heard) : Aside s (s.hearUnstored m) := by
  unfold State.hearUnstored
  split
  · exact s.unstoredFor_aside _ _
  · exact Aside.refl s

theorem State.hearTakeover_aside (m : Heard) : Aside s (s.hearTakeover m) := by
  unfold State.hearTakeover
  split
  · exact s.takeoverFor_aside _ _
  · exact Aside.refl s

/-! ### Placement -/

theorem State.frameArrival_steady (c : Port) (f : FrameRecord) : Steady s (s.frameArrival c f) :=
  (s.onSync_steady c _).trans (State.countOpen_aside _ _ _).steady

theorem State.syncLoss_steady (c : Port) : Steady s (s.syncLoss c) :=
  (s.countOpen_aside c _).steady.trans (State.onSync_steady _ _ _)

theorem State.pack_aside (i : RecIx) (f : FrameRecord) : Aside s (s.pack i f).1 := by
  have request := s.requestPages_aside i .essence
    (pagesFor ((s.record i).essBytes + f.payload.length) - (s.record i).essPages.length)
  unfold State.pack
  dsimp only
  split
  · rename_i t e; rw [e] at request; exact request.trans ⟨rfl, rfl, rfl, rfl⟩
  · rename_i t e; rw [e] at request; exact request

theorem State.enterPlacement_orderly (c : Port) (i : RecIx) (k : PlacementKind) (b : Bool) (f : Option (Nat × Nat)) :
    Orderly s (s.enterPlacement c i k b f) :=
  (s.onRec_aside i _).orderly.trans (State.offer_orderly _ _ _ _)

theorem State.appendPlacement_orderly (c : Port) (i : RecIx) (x : Placement) : Orderly s (s.appendPlacement c i x) := by
  unfold State.appendPlacement
  split
  · rename_i f
    have packed := s.pack_aside i f
    dsimp only
    split
    · rename_i t e; rw [e] at packed; exact packed.orderly.trans (State.enterPlacement_orderly _ _ _ _ _ _)
    · rename_i t e; rw [e] at packed; exact packed.orderly.trans (State.enterPlacement_orderly _ _ _ _ _ _)
  · exact s.enterPlacement_orderly _ _ _ _ _
  · exact s.enterPlacement_orderly _ _ _ _ _

theorem State.releasePlacement_orderly (c : Port) : Orderly s (s.releasePlacement c) := by
  unfold State.releasePlacement
  dsimp only
  split
  · exact (s.onSync_steady c _).toOrderly
  · exact ((s.onSync_steady c _).toOrderly.trans (State.appendPlacement_orderly _ _ _ _)).trans
      (State.onRec_aside _ _ _).orderly

/-! ### Takes -/

theorem State.holdOverExpire_steady (c : Port) (busy : (s.chan c).take.st ≠ .idle) : Steady s (s.holdOverExpire c) := by
  have closed := s.closeOpen_aside true c
  have ended : Steady (s.closeOpen true c) ((s.closeOpen true c).onTake c TakeController.endTakeNow) :=
    State.onTake_steady _ c _ (by simp [TakeController.endTakeNow, TakeController.endTake, busy])
  exact ((closed.steady.trans ended).trans (State.retally_steady _ c)).trans (State.takeEnd_aside _ _ c).steady

theorem State.boundaryClose_steady (c : Port) : Steady s (s.boundaryClose c) := by
  have closed := s.closeOpen_aside false c
  unfold State.boundaryClose
  dsimp only
  split
  · rename_i ending
    rw [State.closeOpen_chan] at ending
    exact ((closed.steady.trans (State.onTake_steady _ c _ (by simp [TakeController.endTake, ending]))).trans
      (State.retally_steady _ c)).trans (State.takeEnd_aside _ _ c).steady
  · exact closed.steady

theorem State.announceClip_steady (c : Port) : Steady s (s.announceClip c) :=
  Steady.after (State.onSel_steady _ c _ (fun range => ⟨range.1, Nat.zero_le _⟩) fun _ => rfl)
    ((s.channelNotice_aside _ _ c).trans (State.channelNotice_aside _ _ _ c)).steady

theorem State.takeStart_steady (c : Port) (q : Cue) (armed : (s.chan c).take.st = .armed) :
    Steady s (s.takeStart c q) :=
  Steady.after (State.announceClip_steady _ c)
    (Steady.after (State.retally_steady _ c) (s.onTake_steady c _ (by simp [armed])))

theorem State.replaceCue_steady (c : Port) (q : Cue) : Steady s (s.replaceCue c q) := by
  unfold State.replaceCue
  split
  · exact (s.onTake_steady c _ Iff.rfl).trans (State.channelNotice_aside _ _ _ c).steady
  · exact (s.onTake_steady c _ Iff.rfl).trans (State.announceClip_steady _ c)

theorem State.settleCue_steady (c : Port) (busy : (s.chan c).take.st ≠ .idle) : Steady s (s.settleCue c) := by
  unfold State.settleCue
  dsimp only
  split
  · split
    · exact s.replaceCue_steady c _
    · split
      · exact Steady.refl s
      · exact ((s.onTake_steady c _ (by simp [TakeController.endTake, busy])).trans
          (State.retally_steady _ c)).trans (State.takeEnd_aside _ _ c).steady
  · exact Steady.refl s

theorem State.openSpan_steady (c : Port) : Steady s (s.openSpan c) := by
  unfold State.openSpan
  dsimp only
  split
  · split
    · exact s.onTake_steady c _ Iff.rfl
    · exact (s.onTake_steady c _ Iff.rfl).trans (State.openSegment_steady _ c _)
  · exact (s.onTake_steady c _ Iff.rfl).trans (State.openSegment_steady _ c _)

theorem State.boundary_steady (c : Port) : Steady s (s.boundary c) := by
  have spanned : ∀ t, Steady s t → Steady s (if (t.chan c).take.st = .recording then t.openSpan c else t) := by
    intro t ht
    split
    · exact ht.trans (t.openSpan_steady c)
    · exact ht
  have closed := s.boundaryClose_steady c
  unfold State.boundary
  dsimp only
  apply spanned
  split
  · rename_i armed _
    exact closed.trans (State.takeStart_steady _ c _ armed)
  · rename_i recording
    exact closed.trans (State.settleCue_steady _ c (by simp [recording]))
  · exact closed

/-! ### Feed conditions -/

theorem State.declareLost_steady (c : Port) (reason : LossReason) : Steady s (s.declareLost c reason) := by
  unfold State.declareLost
  split
  · exact ((((s.onPort_steady c _ rfl).trans (State.retally_steady _ c)).trans (State.onPort_steady _ c _ rfl)).trans
      (State.channelNotice_aside _ _ _ c).steady).trans (State.syncLoss_steady _ c)
  · exact s.onPort_steady c _ rfl

theorem State.feedBack_steady (c : Port) : Steady s (s.feedBack c) := by
  have live : Steady s ((s.onPort c fun p => { p with feed := .live, firstSinceArm := false }).retally c) :=
    (s.onPort_steady c _ rfl).trans (State.retally_steady _ c)
  unfold State.feedBack
  dsimp only
  split
  · exact live.trans (State.onTake_steady _ c _ Iff.rfl)
  · exact (live.trans (State.channelNotice_aside _ _ _ c).steady).trans (State.onTake_steady _ c _ Iff.rfl)

/-! ### The tick in the take controller -/

theorem State.boundaryAndPlacement_orderly (preset : Bool) (c : Port) :
    Orderly s (s.boundaryAndPlacement preset c) := by
  unfold State.boundaryAndPlacement
  dsimp only
  split
  · exact (s.boundary_steady c).toOrderly.trans (State.releasePlacement_orderly _ c)
  · exact s.releasePlacement_orderly c

/-- A tick places a frame, and so may queue a job, only for a channel that is not IDLE. -/
theorem State.takeTick_steady (preset : Bool) (c : Port) : Steady s (s.takeTick preset c) := by
  by_cases busy : (s.chan c).take.st = .idle
  · rw [s.takeTick_of_idle preset c busy]
    exact Steady.refl s
  · refine Orderly.steady_of_awake ?_ (not_asleep_of_busy c busy)
    have counted : Orderly s (s.onTake c fun t => { t with holdOver := t.holdOver + 1 }) :=
      (s.onTake_steady c _ Iff.rfl).toOrderly
    unfold State.takeTick
    dsimp only
    split
    · exact (Steady.refl s).toOrderly
    · split
      · split
        · exact (counted.trans (State.holdOverExpire_steady _ c (by simpa using busy)).toOrderly).trans
            (State.boundaryAndPlacement_orderly _ _ _)
        · exact counted.trans (State.boundaryAndPlacement_orderly _ _ _)
      · exact s.boundaryAndPlacement_orderly preset c

theorem State.presenceFall_steady (c : Port) : Steady s (s.presenceFall c) := by
  unfold State.presenceFall
  dsimp only
  split
  · exact (s.onPort_steady c _ rfl).trans (State.declareLost_steady _ c _)
  · exact Steady.refl s

theorem State.samplePresence_steady (level : Bool) (c : Port) : Steady s (s.samplePresence level c) := by
  unfold State.samplePresence
  dsimp only
  split
  · exact s.onPort_steady c _ rfl
  · split
    · exact s.onPort_steady c _ rfl
    · split
      · exact s.onPort_steady c _ rfl
      · exact (s.onPort_steady c _ rfl).trans (State.presenceFall_steady _ c)

/-! ### Closing a channel (R30, R51, R72, R73) -/

/-- A channel that ends CLOSED and IDLE with its selector as it was is in order, whatever it was before. -/
theorem Steady.of_closed {s t : State} (c : Port) (running : t.running = s.running)
    (enabled : t.cue.enabled = s.cue.enabled) (jobs : t.browse.jobs = s.browse.jobs)
    (closed : (t.chan c).port.opened = false) (idle : (t.chan c).take.st = .idle)
    (sel : (t.chan c).sel = (s.chan c).sel) (others : ∀ d, d ≠ c → t.chan d = s.chan d) : Steady s t where
  running := running
  enabled := enabled
  jobs := jobs ▸ le_max_left _ _
  ports d := by
    by_cases e : d = c
    · subst e
      intro _
      simp [Channel.PortFollows, closed, idle]
    · rw [others d e]
      exact id
  sels d := by
    by_cases e : d = c
    · subst e
      rw [sel]
      exact id
    · rw [others d e]
      exact id
  asleep a := by
    refine ⟨enabled.trans a.disabled, jobs.trans a.noJobs, fun d => ?_⟩
    by_cases e : d = c
    · subst e
      exact ⟨idle, sel ▸ (a.channels d).2⟩
    · rw [others d e]
      exact a.channels d

/-- A channel with its port closed and its window emptied, its take controller as it stands (R30, R51). -/
def Channel.shut (fault : Bool) (x : Channel) : Channel :=
  { port := { x.port.close with faultMark := fault }, sync := x.sync.seek, take := x.take, sel := x.sel }

theorem State.onPort_onSync (c : Port) (f : FeedPort → FeedPort) (g : Synchroniser → Synchroniser) :
    (s.onPort c f).onSync c g = s.setChan c { s.chan c with port := f (s.chan c).port, sync := g (s.chan c).sync } := by
  simp only [State.onPort, State.onSync, State.chan_setChan_same, State.setChan_setChan]

theorem State.feedFault_of_taking (c : Port) (taking : (s.chan c).take.st = .recording ∨ (s.chan c).take.st = .ending) :
    s.feedFault c = State.retally c (State.onTake c TakeController.toIdle (State.takeEnd .fault c
      ((State.channelNotice .feedFault 0x00#8 c (s.setChan c ((s.chan c).shut true))).closeOpen true c))) := by
  have shut := s.onPort_onSync c (fun p => { p.close with faultMark := true }) Synchroniser.seek
  simp only [State.feedFault, shut, State.channelNotice_chan, State.chan_setChan_same, if_pos taking]
  rfl

theorem State.feedFault_of_not_taking (c : Port)
    (idle : ¬ ((s.chan c).take.st = .recording ∨ (s.chan c).take.st = .ending)) :
    s.feedFault c = State.retally c (State.onTake c TakeController.toIdle
      (State.channelNotice .feedFault 0x00#8 c (s.setChan c ((s.chan c).shut true)))) := by
  have shut := s.onPort_onSync c (fun p => { p.close with faultMark := true }) Synchroniser.seek
  simp only [State.feedFault, shut, State.channelNotice_chan, State.chan_setChan_same, if_neg idle]
  rfl

/-- FEED FAULT shuts the channel, does what leaves every channel as it is (the notices and the close of the segment), and
then brings the take controller to IDLE with its tally (R22, R72). -/
theorem State.feedFault_shape (c : Port) : ∃ u, Aside (s.setChan c ((s.chan c).shut true)) u ∧
    s.feedFault c = (u.onTake c TakeController.toIdle).retally c := by
  have told := State.channelNotice_aside (s.setChan c ((s.chan c).shut true)) .feedFault 0x00#8 c
  by_cases taking : (s.chan c).take.st = .recording ∨ (s.chan c).take.st = .ending
  · exact ⟨_, (told.trans (State.closeOpen_aside _ true c)).trans (State.takeEnd_aside _ .fault c),
      s.feedFault_of_taking c taking⟩
  · exact ⟨_, told, s.feedFault_of_not_taking c taking⟩

theorem State.feedFault_steady (c : Port) : Steady s (s.feedFault c) := by
  obtain ⟨u, aside, shape⟩ := s.feedFault_shape c
  have chan : u.chan c = (s.chan c).shut true := by rw [aside.chan, State.chan_setChan_same]
  rw [shape]
  refine Steady.after (State.retally_steady _ c)
    (Steady.of_closed c aside.running aside.enabled aside.jobs ?_ ?_ ?_ fun d e => ?_)
  · rw [State.onTake_chan, chan]; rfl
  · rw [State.onTake_chan, chan]; rfl
  · rw [State.onTake_chan, chan]; rfl
  · rw [State.onTake_chan_other _ _ e, aside.chan, State.chan_setChan_other _ _ e]

theorem State.closeChannel_eq (c : Port) : s.closeChannel c = s.setChan c
    { port := (s.chan c).port.close, sync := (s.chan c).sync.seek, take := (s.chan c).take.toIdle,
      sel := (s.chan c).sel } := by
  simp only [State.closeChannel, State.onPort, State.onSync, State.onTake, State.chan_setChan_same,
    State.setChan_setChan]

theorem State.closeChannel_steady (c : Port) : Steady s (s.closeChannel c) := by
  rw [State.closeChannel_eq]
  refine Steady.of_closed c rfl rfl rfl ?_ ?_ ?_ fun d e => State.chan_setChan_other _ _ e
  · rw [State.chan_setChan_same]; rfl
  · rw [State.chan_setChan_same]; rfl
  · rw [State.chan_setChan_same]

theorem State.corruptOutcome_steady (c : Port) : Steady s (s.corruptOutcome c) := by
  unfold State.corruptOutcome
  dsimp only
  split
  · exact (s.onPort_steady c _ rfl).trans (State.feedFault_steady _ c)
  · exact s.onPort_steady c _ rfl

/-! ### Lane bytes -/

theorem State.acceptFrame_steady (c : Port) (h : Header) (payload : List Byte) :
    Steady s (s.acceptFrame c h payload) := by
  have live : ∀ t : State, Steady t (if (t.chan c).port.feed = .live then t else t.feedBack c) := by
    intro t
    split
    · exact Steady.refl t
    · exact t.feedBack_steady c
  unfold State.acceptFrame
  dsimp only
  have arrived (f : FeedPort → FeedPort) (opened : (f (s.chan c).port).opened = (s.chan c).port.opened)
      (r : FrameRecord) :=
    ((s.onPort_steady c f opened).trans (live _)).trans (State.frameArrival_steady _ c r)
  split
  · exact (arrived _ rfl _).trans (State.declareLost_steady _ c _)
  · exact arrived _ rfl _

theorem State.judgeHeader_steady (c : Port) (got : List Byte) : Steady s (s.judgeHeader c got) := by
  unfold State.judgeHeader
  split
  · exact s.onPort_steady c _ rfl
  · exact (s.onPort_steady c _ rfl).trans (State.corruptOutcome_steady _ c)

theorem State.judgeFrame_steady (c : Port) (h : Header) (got : List Byte) : Steady s (s.judgeFrame c h got) := by
  have hunting : Steady s (s.onPort c fun p => { p with rx := .hunt [] }) := s.onPort_steady c _ rfl
  unfold State.judgeFrame State.goodFrame
  dsimp only
  split
  · split
    · exact hunting.trans (State.acceptFrame_steady _ c _ _)
    · exact hunting.trans (State.onPort_steady _ c _ rfl)
  · exact hunting.trans (State.corruptOutcome_steady _ c)

theorem State.laneByte_steady (c : Port) (b : Byte) : Steady s (s.laneByte c b) := by
  unfold State.laneByte
  dsimp only
  split
  · exact Steady.refl s
  · split
    · split
      · exact s.onPort_steady c _ rfl
      · exact s.onPort_steady c _ rfl
    · split
      · exact s.judgeHeader_steady c _
      · exact s.onPort_steady c _ rfl
    · split
      · exact s.judgeFrame_steady c _ _
      · exact s.onPort_steady c _ rfl

theorem State.hearLane_steady (c : Port) (x : LaneBytes) : Steady s (s.hearLane c x) := by
  unfold State.hearLane
  split
  · exact (s.onPort_steady c _ rfl).trans (Steady.foldl (fun t b => t.laneByte_steady c b) _ _)
  · exact Steady.refl s

theorem State.waitingExpiry_steady (c : Port) : Steady s (s.waitingExpiry c) := by
  unfold State.waitingExpiry
  dsimp only
  split
  · split
    · exact ((s.onPort_steady c _ rfl).trans (State.onPort_steady _ c _ rfl)).trans (State.declareLost_steady _ c _)
    · exact s.onPort_steady c _ rfl
  · exact Steady.refl s

theorem State.takeHoldOver_steady (c : Port) : Steady s (s.takeHoldOver c) := by
  unfold State.takeHoldOver
  dsimp only
  split
  · rename_i due
    exact s.holdOverExpire_steady c (by simp [due.1])
  · exact Steady.refl s

/-! ### House ticks -/

theorem State.tickTimers_steady : Steady s s.tickTimers where
  running := rfl
  enabled := rfl
  jobs := le_max_left _ _
  ports c := by rw [State.tickTimers_chan]; exact id
  sels c := by rw [State.tickTimers_chan]; exact id
  asleep a := ⟨a.disabled, a.noJobs, fun c => by rw [State.tickTimers_chan]; exact a.channels c⟩

theorem State.tickPart_steady (tick : TickInput) (preset : Bool) (part : TickPart) :
    Steady s (s.tickPart tick preset part) := by
  cases part with
  | presence c => exact s.samplePresence_steady _ c
  | placement c => exact s.takeTick_steady preset c
  | tally c => exact s.tallyStep_steady c
  | waiting c => exact s.waitingExpiry_steady c
  | lane c b => exact s.hearLane_steady c _
  | drain i => exact s.takeDrain_steady i
  | window i => exact (s.windowExpiry_aside i).steady
  | commit i => exact (s.commitExpiry_aside i).steady
  | store k => exact (s.storeExpiry_aside k).steady
  | clear => exact s.clearExpiry_aside.steady

theorem State.houseTick_steady (tick : TickInput) : Steady s (State.houseTick tick s) := by
  have advanced : Aside s { s with ref := s.ref.advance } := ⟨rfl, rfl, rfl, rfl⟩
  unfold State.houseTick
  exact (advanced.steady.trans (State.tickTimers_steady _)).trans
    (Steady.foldl (fun t part => t.tickPart_steady tick _ part) _ _)

/-- A tick that comes with a change of the Reference Unit. -/
theorem State.houseTick_withRef_steady (tick : TickInput) (r : RefUnit) :
    Steady s (State.houseTick tick { s with ref := r }) :=
  Steady.trans (t := { s with ref := r }) (Aside.steady ⟨rfl, rfl, rfl, rfl⟩) (State.houseTick_steady _ tick)

theorem State.pulse_steady (time : Nat) (tick : TickInput) : Steady s (s.pulse time tick) := by
  unfold State.pulse State.realPulse
  dsimp only
  split
  · split
    · exact s.houseTick_withRef_steady tick _
    · exact s.houseTick_withRef_steady tick _
    · exact s.houseTick_withRef_steady tick _
    · split
      · exact Steady.after (State.engineNotice_aside _ _ _).steady (Aside.steady ⟨rfl, rfl, rfl, rfl⟩)
      · exact (s.houseTick_withRef_steady tick _).trans (State.engineNotice_aside _ _ _).steady
  · exact Steady.refl s

theorem State.lossOfReference_steady (time : Nat) (tick : TickInput) : Steady s (s.lossOfReference time tick) := by
  unfold State.lossOfReference
  dsimp only
  split
  · exact (s.houseTick_withRef_steady tick _).trans (State.engineNotice_aside _ _ _).steady
  · exact Steady.refl s

theorem State.flywheelStep_steady (time : Nat) (tick : TickInput) : Steady s (s.flywheelStep time tick) := by
  unfold State.flywheelStep
  split
  · exact s.houseTick_withRef_steady tick _
  · exact Steady.refl s

/-! ### Cue-line commands -/

/-- Every parameter of an accepted ARM or of a good image is in its range, so its quantiser bounds are in order (R58). -/
theorem clampParams_bounds (x : ChannelParams) : (clampParams x).qMin ≤ (clampParams x).qMax := le_max_left _ _

theorem State.arm_orderly (payload : List Byte) : Orderly s (s.arm payload).state := by
  unfold State.arm
  dsimp only
  split
  · exact (Steady.refl s).toOrderly
  · split
    · exact (Steady.refl s).toOrderly
    · split
      · exact (Steady.refl s).toOrderly
      · split
        · exact (Steady.refl s).toOrderly
        · rename_i c _ _ _ _
          refine Orderly.after (State.retally_steady _ c).toOrderly (s.setChan_orderly c _ (fun _ => ?_) fun _ => ?_)
          · simp [Channel.PortFollows, Channel.arm, FeedPort.open, TakeController.arm]
          · exact ⟨clampParams_bounds _, Nat.zero_le _⟩

theorem State.disarm_orderly (c : Port) : Orderly s (s.disarm c).state := by
  unfold State.disarm
  split
  · exact ((s.closeChannel_steady c).trans (State.retally_steady _ c)).toOrderly
  · exact (Steady.refl s).toOrderly
  · exact (Steady.refl s).toOrderly
  · exact (Steady.refl s).toOrderly

theorem State.cueCommand_orderly (q : Cue) (c : Port) : Orderly s (s.cueCommand q c).state := by
  unfold State.cueCommand
  dsimp only
  split
  · exact (Steady.refl s).toOrderly
  · split
    · exact (Steady.refl s).toOrderly
    · split
      · exact (Steady.refl s).toOrderly
      · split
        · exact (Steady.refl s).toOrderly
        · exact (s.onTake_steady c (fun t => { t with buffer := some q, cueEmpty := false }) Iff.rfl).toOrderly

theorem State.stopCommand_orderly (c : Port) : Orderly s (s.stopCommand c).state := by
  unfold State.stopCommand
  dsimp only
  split
  · rename_i recording
    exact ((s.onTake_steady c _ (by simp [recording])).trans (State.retally_steady _ c)).toOrderly
  · split
    · exact (s.onTake_steady c (fun t => { t with buffer := none }) Iff.rfl).toOrderly
    · exact (Steady.refl s).toOrderly
  · exact (Steady.refl s).toOrderly
  · exact (Steady.refl s).toOrderly

theorem State.cutCommand_orderly (c : Port) : Orderly s (s.cutCommand c).state := by
  unfold State.cutCommand
  dsimp only
  split
  · rename_i taking
    have busy : (s.chan c).take.st ≠ .idle := by rcases taking with st | st <;> simp [st]
    have ended : Steady (s.closeOpen false c) ((s.closeOpen false c).onTake c TakeController.endTakeNow) :=
      State.onTake_steady _ c _ (by simp [TakeController.endTakeNow, TakeController.endTake, busy])
    exact ((((s.closeOpen_aside false c).steady.trans ended).trans (State.retally_steady _ c)).trans
      (State.takeEnd_aside _ _ c).steady).toOrderly
  · exact (Steady.refl s).toOrderly

theorem State.resetRecord_steady (c : Port) (i : RecIx) : Steady s (s.resetRecord c i) := by
  unfold State.resetRecord
  split
  · exact (s.withdraw_steady i).trans (State.freeRecord_aside _ i).steady
  · exact Steady.refl s

theorem State.resetChannelCommand_orderly (c : Port) : Orderly s (s.resetChannelCommand c).state := by
  unfold State.resetChannelCommand
  dsimp only [State.done]
  refine Steady.toOrderly (Steady.after (State.retally_steady _ c)
    (Steady.after (Steady.foldl (fun t i => t.resetRecord_steady c i) _ _) ?_))
  exact Steady.after (State.onTake_steady _ c _ Iff.rfl)
    (Steady.after (State.onPort_steady _ c _ rfl) (s.closeChannel_steady c))

theorem State.resumeCommand_aside : Aside s s.resumeCommand.state := by
  unfold State.resumeCommand
  split
  · exact Aside.refl s
  · split
    · exact Aside.refl s
    · split
      · exact Aside.refl s
      · exact Aside.after (State.issue_aside _) ⟨rfl, rfl, rfl, rfl⟩

theorem State.giveUp_aside (i : RecIx) : Aside s (s.giveUp i) := by
  unfold State.giveUp
  split
  · exact ((s.transmit_aside _).trans (State.freeRecord_aside _ i)).trans (State.leaveWriteQueue_aside _ i)
  · exact Aside.refl s

theorem State.resetStoreCommand_aside : Aside s s.resetStoreCommand.state := by
  have tagsFreed : Aside s { s with link := { s.link with tags := Vector.replicate 16 .free } } := ⟨rfl, rfl, rfl, rfl⟩
  unfold State.resetStoreCommand
  dsimp only
  split
  · exact Aside.refl s
  · exact (tagsFreed.trans (Aside.foldl (fun t i => t.giveUp_aside i) _ _)).trans ⟨rfl, rfl, rfl, rfl⟩

/-- An accepted message finds the interface enabled, and so the engine awake (R170). -/
theorem State.awake_of_accepts {s : State} {m : Heard} (h : s.accepts m = true) : ¬ Asleep s := by
  apply not_asleep_of_enabled
  simp only [State.accepts, Bool.and_eq_true] at h
  exact h.1.1

/-- A command whose effect is orderly is steady: one that is not accepted does nothing. -/
theorem State.command_steady (kind : Byte) (need : Nat) (viaFeed viaAll : Bool) (channel : Byte) (act : State → Taken)
    (m : Heard) (effect : Orderly s (act s).state) : Steady s (s.command kind need viaFeed viaAll channel act m) := by
  unfold State.command
  split
  · rename_i accepted
    refine Orderly.steady_of_awake ?_ (State.awake_of_accepts accepted)
    split
    · split
      · exact (s.reply_aside _ _ _ _ _).orderly
      · exact effect.trans (State.reply_aside _ _ _ _ _ _).orderly
    · split
      · exact effect
      · exact (Steady.refl s).toOrderly
    · split
      · exact effect
      · exact (Steady.refl s).toOrderly
    · exact (Steady.refl s).toOrderly
  · exact Steady.refl s

theorem State.onChannel_orderly (c : Option Port) (act : Port → State → Taken)
    (effect : ∀ c, Orderly s (act c s).state) : Orderly s (s.onChannel c act).state := by
  cases c with
  | none => exact (Steady.refl s).toOrderly
  | some c => exact effect c

theorem State.hearArm_steady (m : Heard) : Steady s (s.hearArm m) :=
  s.command_steady _ _ _ _ _ _ m (s.arm_orderly m.payload)

theorem State.hearDisarm_steady (m : Heard) : Steady s (s.hearDisarm m) :=
  s.command_steady _ _ _ _ _ _ m (s.onChannel_orderly _ _ s.disarm_orderly)

theorem State.hearCue_steady (m : Heard) : Steady s (s.hearCue m) :=
  s.command_steady _ _ _ _ _ _ m (s.onChannel_orderly _ _ (s.cueCommand_orderly _))

theorem State.hearStop_steady (m : Heard) : Steady s (s.hearStop m) :=
  s.command_steady _ _ _ _ _ _ m (s.onChannel_orderly _ _ s.stopCommand_orderly)

theorem State.hearCut_steady (m : Heard) : Steady s (s.hearCut m) :=
  s.command_steady _ _ _ _ _ _ m (s.onChannel_orderly _ _ s.cutCommand_orderly)

theorem State.hearResetChannel_steady (m : Heard) : Steady s (s.hearResetChannel m) :=
  s.command_steady _ _ _ _ _ _ m (s.onChannel_orderly _ _ s.resetChannelCommand_orderly)

theorem State.hearPreset_steady (m : Heard) : Steady s (s.hearPreset m) :=
  s.command_steady _ _ _ _ _ _ m (Aside.orderly ⟨rfl, rfl, rfl, rfl⟩)

theorem State.hearResumeStore_steady (m : Heard) : Steady s (s.hearResumeStore m) :=
  s.command_steady _ _ _ _ _ _ m s.resumeCommand_aside.orderly

theorem State.hearResetStore_steady (m : Heard) : Steady s (s.hearResetStore m) :=
  s.command_steady _ _ _ _ _ _ m s.resetStoreCommand_aside.orderly

theorem State.queryEngine_aside (dest : Station) (clear : Bool) : Aside s (s.queryEngine dest clear) := by
  have latches : Aside s s.clearLatches := ⟨rfl, rfl, rfl, rfl⟩
  unfold State.queryEngine
  dsimp only
  refine Aside.after (State.transmit_aside _ _) (Aside.after (State.transmit_aside _ _) ?_)
  split
  · exact latches.trans ⟨rfl, rfl, rfl, rfl⟩
  · exact latches

theorem State.queryChannel_steady (dest : Station) (clear : Bool) (c : Port) :
    Steady s (s.queryChannel dest clear c) := by
  unfold State.queryChannel
  dsimp only
  refine Steady.after (State.transmit_aside _ _).steady ?_
  split
  · exact s.setChan_steady c _ id id id
  · exact Steady.refl s

theorem State.hearQuery_steady (m : Heard) : Steady s (s.hearQuery m) := by
  unfold State.hearQuery
  dsimp only
  split
  · split
    · split
      · exact (s.reply_aside _ _ _ _ _).steady
      · split
        · exact (s.queryEngine_aside _ _).steady
        · split
          · exact s.queryChannel_steady _ _ _
          · exact (s.reply_aside _ _ _ _ _).steady
    · exact Steady.refl s
  · exact Steady.refl s

theorem State.hearUnknown_aside (kind : Byte) (m : Heard) : Aside s (s.hearUnknown kind m) := by
  unfold State.hearUnknown
  split
  · split
    · exact s.reply_aside _ _ _ _ _
    · exact Aside.refl s
  · exact Aside.refl s

/-! ### The cue line -/

theorem State.waitIdle_aside (n : Nat) : Aside s (s.waitIdle n) := ⟨rfl, rfl, rfl, rfl⟩
theorem State.countRxBad_aside : Aside s s.countRxBad := ⟨rfl, rfl, rfl, rfl⟩

theorem State.idleSend_aside (gap : Nat) : Aside s (s.idleSend gap) := by
  unfold State.idleSend
  split
  · split
    · split
      · split
        · exact ⟨rfl, rfl, rfl, rfl⟩
        · exact s.waitIdle_aside _
      · exact s.waitIdle_aside _
    · exact Aside.refl s
  · exact Aside.refl s
  · exact Aside.refl s

theorem State.removeSent_aside : Aside s s.removeSent := by
  unfold State.removeSent
  split
  · exact ⟨rfl, rfl, rfl, rfl⟩
  · exact Aside.refl s

theorem State.abandonMessage_aside : Aside s s.abandonMessage := s.removeSent_aside.trans ⟨rfl, rfl, rfl, rfl⟩

theorem State.loseArbitration_aside : Aside s s.loseArbitration := by
  unfold State.loseArbitration
  split
  · exact ⟨rfl, rfl, rfl, rfl⟩
  · exact Aside.refl s

theorem State.takeClash_aside : Aside s s.takeClash := by
  unfold State.takeClash
  split
  · exact s.abandonMessage_aside.trans (State.waitIdle_aside _ _)
  · exact Aside.refl s

theorem State.takeSent_aside : Aside s s.takeSent := by
  unfold State.takeSent
  split
  · exact Aside.after (State.waitIdle_aside _ _) (Aside.after (State.removeSent_aside _) ⟨rfl, rfl, rfl, rfl⟩)
  · exact Aside.refl s

theorem State.takeStuck_aside (inArbitration : Bool) : Aside s (s.takeStuck inArbitration) := by
  have latched : Aside s { s with cue := { s.cue with stuckLatch := true } } := ⟨rfl, rfl, rfl, rfl⟩
  unfold State.takeStuck
  dsimp only
  split
  · refine Aside.after (State.waitIdle_aside _ _) ?_
    split
    · exact latched
    · exact latched.trans (State.countRxBad_aside _)
    · split
      · exact latched.trans (State.countRxBad_aside _)
      · exact latched.trans (State.abandonMessage_aside _)
  · exact Aside.refl s

theorem Steady.ite {s t u : State} {p : Prop} [Decidable p] (h : Steady s t) (k : Steady s u) :
    Steady s (if p then t else u) := by
  split
  · exact h
  · exact k

theorem State.takeMessage_steady (kind : Byte) (m : Heard) : Steady s (s.takeMessage kind m) := by
  unfold State.takeMessage
  exact .ite (s.hearArm_steady m) <| .ite (s.hearDisarm_steady m) <| .ite (s.hearCue_steady m) <|
    .ite (s.hearStop_steady m) <| .ite (s.hearCut_steady m) <| .ite (s.hearResetChannel_steady m) <|
    .ite (s.hearPreset_steady m) <| .ite (s.hearResumeStore_steady m) <| .ite (s.hearResetStore_steady m) <|
    .ite (s.hearQuery_steady m) <| .ite (.refl s) <| .ite (.refl s) <| .ite (.refl s) <|
    .ite (s.hearReport_aside m).steady <| .ite (s.hearStored_aside m).steady <|
    .ite (s.hearUnstored_aside m).steady <| .ite (s.hearTakeover_aside m).steady
    (s.hearUnknown_aside kind m).steady

theorem State.hearFrame_steady (bits : List Bool) : Steady s (s.hearFrame bits) := by
  unfold State.hearFrame
  split
  · exact (s.countRxBad_aside.trans (State.waitIdle_aside _ _)).steady
  · exact (s.waitIdle_aside _).steady.trans (State.takeMessage_steady _ _ _)

theorem State.lineFrame_steady (gap : Nat) (bits : List Bool) : Steady s (s.lineFrame gap bits) := by
  unfold State.lineFrame
  dsimp only
  split
  · split
    · exact Steady.refl s
    · exact s.hearFrame_steady _
    · split
      · exact (s.waitIdle_aside _).steady
      · split
        · exact s.hearFrame_steady _
        · exact (s.waitIdle_aside _).steady
  · exact Steady.refl s

/-! ### Start-up -/

theorem State.releaseReset_aside (straps : Station) : Aside s (s.releaseReset straps) := by
  unfold State.releaseReset
  split
  · rename_i held
    exact ⟨by simp [State.running, held], rfl, rfl, rfl⟩
  · exact Aside.refl s

/-- What the end of start-up puts in force, before START and the STORE-HALT level (R174). -/
def State.configured (cfg : Configuration) (source : Source) (s : State) : State :=
  { s with
    chans := s.chans.map (Channel.configure cfg.params cfg.activeLow)
    cue := { s.cue with enabled := true, activity := .waiting 0 }
    status :=
      { s.status with
        phase := .running, cfg := cfg, source := some source,
        defaultedLatch := s.status.defaultedLatch || decide (source = Source.defaulted) } }

theorem State.endStartUp_aside (cfg : Configuration) (source : Source) :
    Aside (s.configured cfg source) (s.endStartUp cfg source) := by
  have started := (s.configured cfg source).notice_aside .start source.reason engineChannel 0#32
  unfold State.endStartUp
  dsimp only
  split
  · exact started.trans (State.haltStore_aside _ _)
  · exact started

theorem State.endStartUp_chan (cfg : Configuration) (source : Source) (c : Port) :
    (s.endStartUp cfg source).chan c = (s.chan c).configure cfg.params cfg.activeLow :=
  ((s.endStartUp_aside cfg source).chan c).trans (vector_get_map _ _ _)

theorem State.endStartUp_jobs (cfg : Configuration) (source : Source) :
    (s.endStartUp cfg source).browse.jobs = s.browse.jobs := (s.endStartUp_aside cfg source).jobs

theorem State.endStartUp_running (cfg : Configuration) (source : Source) :
    (s.endStartUp cfg source).running = true := (s.endStartUp_aside cfg source).running

/-! ### What a command can do -/

/-- Start-up ends, which happens only while it lasts, with a configuration whose quantiser bounds are in order. -/
structure EndsStartUp (s t : State) : Prop where
  stopped : s.running = false
  ends : ∃ cfg source, cfg.params.qMin ≤ cfg.params.qMax ∧ t = s.endStartUp cfg source

theorem not_running_iff (s : State) : s.running = false ↔ s.status.phase ≠ .running := by simp [State.running]

theorem not_running_of_startingUp {s : State} (h : s.status.phase = .startingUp) : s.running = false := by
  simp [not_running_iff, h]

theorem State.configurationRead_cases (image : List Byte) :
    Steady s (s.configurationRead image) ∨ EndsStartUp s (s.configurationRead image) := by
  unfold State.configurationRead
  split
  · rename_i starting
    refine .inr ⟨not_running_of_startingUp starting, ?_⟩
    split
    · exact ⟨_, _, clampParams_bounds _, rfl⟩
    · exact ⟨_, _, by decide, rfl⟩
  · exact .inl (Steady.refl s)

theorem State.configurationMissing_cases :
    Steady s s.configurationMissing ∨ EndsStartUp s s.configurationMissing := by
  unfold State.configurationMissing
  split
  · rename_i starting
    exact .inr ⟨not_running_of_startingUp starting, _, _, by decide, rfl⟩
  · exact .inl (Steady.refl s)

/-- Every command completes: it is steady, or it resets the engine, or it ends start-up. -/
theorem exec_cases (i : Instr) : ∃ t, exec i s = .next t ∧ (Steady s t ∨ t = s.assertReset ∨ EndsStartUp s t) := by
  cases i with
  | powerOnReset => exact ⟨_, rfl, .inr (.inl rfl)⟩
  | configurationReadComplete image => exact ⟨_, rfl, (s.configurationRead_cases image).imp_right .inr⟩
  | configurationReadTimeout => exact ⟨_, rfl, s.configurationMissing_cases.imp_right .inr⟩
  | resetRelease straps => exact ⟨_, rfl, .inl (s.releaseReset_aside straps).steady⟩
  | referencePulse time tick => exact ⟨_, rfl, .inl (s.pulse_steady time tick)⟩
  | lossDeadlineExpiry time tick => exact ⟨_, rfl, .inl (s.lossOfReference_steady time tick)⟩
  | flywheelTick time tick => exact ⟨_, rfl, .inl (s.flywheelStep_steady time tick)⟩
  | preset m => exact ⟨_, rfl, .inl (s.hearPreset_steady m)⟩
  | headerJudged port bytes => exact ⟨_, rfl, .inl (s.hearLane_steady port bytes)⟩
  | frameComplete port bytes => exact ⟨_, rfl, .inl (s.hearLane_steady port bytes)⟩
  | frameWaitingTimerExpiry port => exact ⟨_, rfl, .inl (s.waitingExpiry_steady port)⟩
  | arm m => exact ⟨_, rfl, .inl (s.hearArm_steady m)⟩
  | disarm m => exact ⟨_, rfl, .inl (s.hearDisarm_steady m)⟩
  | cue m => exact ⟨_, rfl, .inl (s.hearCue_steady m)⟩
  | stop m => exact ⟨_, rfl, .inl (s.hearStop_steady m)⟩
  | cut m => exact ⟨_, rfl, .inl (s.hearCut_steady m)⟩
  | resetChannel m => exact ⟨_, rfl, .inl (s.hearResetChannel_steady m)⟩
  | holdOverExpiry port => exact ⟨_, rfl, .inl (s.takeHoldOver_steady port)⟩
  | coderCompletion coded => exact ⟨_, rfl, .inl (s.complete_steady coded)⟩
  | drainTimerExpiry record => exact ⟨_, rfl, .inl (s.takeDrain_steady record)⟩
  | reportHeard m => exact ⟨_, rfl, .inl (s.hearReport_aside m).steady⟩
  | reportWindowExpiry record => exact ⟨_, rfl, .inl (s.windowExpiry_aside record).steady⟩
  | storedHeard m => exact ⟨_, rfl, .inl (s.takeStored_aside m).steady⟩
  | unstoredHeard m => exact ⟨_, rfl, .inl (s.hearUnstored_aside m).steady⟩
  | takeoverHeard m => exact ⟨_, rfl, .inl (s.hearTakeover_aside m).steady⟩
  | commitTimerExpiry record => exact ⟨_, rfl, .inl (s.commitExpiry_aside record).steady⟩
  | acknowledgement tag status => exact ⟨_, rfl, .inl (s.acknowledge_aside tag status).steady⟩
  | storeWaitingTimerExpiry tag => exact ⟨_, rfl, .inl (s.storeExpiry_aside tag).steady⟩
  | storeHaltAssert => exact ⟨_, rfl, .inl s.haltAssert_aside.steady⟩
  | storeHaltRelease => exact ⟨_, rfl, .inl (Aside.steady ⟨rfl, rfl, rfl, rfl⟩)⟩
  | resumeStore m => exact ⟨_, rfl, .inl (s.hearResumeStore_steady m)⟩
  | resetStore m => exact ⟨_, rfl, .inl (s.hearResetStore_steady m)⟩
  | cleared => exact ⟨_, rfl, .inl s.clearedReceived_aside.steady⟩
  | clearTimerExpiry => exact ⟨_, rfl, .inl s.clearExpiry_aside.steady⟩
  | storeLinkOtherType kind => exact ⟨_, rfl, .inl (Steady.refl s)⟩
  | lineIdleSend gap => exact ⟨_, rfl, .inl (s.idleSend_aside gap).steady⟩
  | lostArbitration => exact ⟨_, rfl, .inl s.loseArbitration_aside.steady⟩
  | clash => exact ⟨_, rfl, .inl s.takeClash_aside.steady⟩
  | messageSent => exact ⟨_, rfl, .inl s.takeSent_aside.steady⟩
  | lineStuck inArbitration => exact ⟨_, rfl, .inl (s.takeStuck_aside inArbitration).steady⟩
  | cueLineFrame gap bits => exact ⟨_, rfl, .inl (s.lineFrame_steady gap bits)⟩
  | unknownKind kind m => exact ⟨_, rfl, .inl (s.takeMessage_steady kind m)⟩
  | query m => exact ⟨_, rfl, .inl (s.hearQuery_steady m)⟩
  | syncMarkerFound port bytes => exact ⟨_, rfl, .inl (s.hearLane_steady port _)⟩

/-- A step takes a command from the queue and does what that command can do; with nothing waiting it does nothing. -/
theorem step_cases (s t : State) (h : step s = .next t) :
    ∃ u, Aside s u ∧ (Steady u t ∨ t = u.assertReset ∨ EndsStartUp u t) := by
  cases waiting : s.pending with
  | nil =>
    rw [step, waiting] at h
    cases h
    exact ⟨s, Aside.refl s, .inl (Steady.refl s)⟩
  | cons c rest =>
    rw [step, waiting] at h
    obtain ⟨v, next, can⟩ := exec_cases { s with pending := rest } c
    rw [show exec c { s with pending := rest } = .next t from h] at next
    cases next
    exact ⟨{ s with pending := rest }, ⟨rfl, rfl, rfl, rfl⟩, can⟩

/-- A property is an invariant when what is steady keeps it, the reset state has it, and the end of start-up keeps it. -/
theorem keptByEveryStep_of {inv : State → Prop} (steady : ∀ s t, Steady s t → inv s → inv t)
    (reset : ∀ s, inv (State.assertReset s)) (startUp : ∀ s t, EndsStartUp s t → inv s → inv t) :
    KeptByEveryStep inv := by
  intro s t before h
  obtain ⟨u, taken, kept | rfl | ended⟩ := step_cases s t h
  · exact steady u t kept (steady s u taken.steady before)
  · exact reset u
  · exact startUp u t ended (steady s u taken.steady before)

theorem jobQueueBounded_kept : KeptByEveryStep JobQueueBounded := by
  refine keptByEveryStep_of (fun s t kept bounded => ?_) (fun s => ?_) fun s t ended bounded => ?_
  · exact kept.jobs.trans (max_le bounded le_rfl)
  · exact Nat.zero_le _
  · obtain ⟨cfg, source, _, rfl⟩ := ended.ends
    rw [JobQueueBounded, State.endStartUp_jobs]
    exact bounded

theorem portsFollowChannels_kept : KeptByEveryStep PortsFollowChannels := by
  refine keptByEveryStep_of (fun s t kept follow c => kept.ports c (follow c)) (fun s c => ?_) fun s t ended follow c => ?_
  · rw [State.assertReset_chan]
    decide
  · obtain ⟨cfg, source, _, rfl⟩ := ended.ends
    rw [State.endStartUp_chan]
    exact follow c

/-- The selectors are in range, and an engine that is not running is asleep. -/
theorem selectorsInRange_iff (s : State) :
    SelectorsInRange s ↔ (∀ c, (s.chan c).sel.InRange) ∧ (s.running = false → Asleep s) := by
  rw [SelectorsInRange, not_running_iff]
  exact and_congr_right fun _ => forall_congr' fun _ =>
    ⟨fun ⟨disabled, noJobs, channels⟩ => ⟨disabled, noJobs, channels⟩,
      fun a => ⟨a.disabled, a.noJobs, a.channels⟩⟩

theorem State.assertReset_asleep : Asleep s.assertReset :=
  ⟨rfl, rfl, fun c => by rw [State.assertReset_chan]; exact ⟨rfl, rfl⟩⟩

theorem selectorsInRange_kept : KeptByEveryStep SelectorsInRange := by
  simp only [KeptByEveryStep, selectorsInRange_iff]
  refine keptByEveryStep_of (fun s t kept inv => ?_) (fun s => ?_) fun s t ended inv => ?_
  · exact ⟨fun c => kept.sels c (inv.1 c), fun idle => kept.asleep (inv.2 (kept.running ▸ idle))⟩
  · refine ⟨fun c => ?_, fun _ => s.assertReset_asleep⟩
    rw [State.assertReset_chan]
    exact ⟨by decide, by decide⟩
  · obtain ⟨cfg, source, bounds, rfl⟩ := ended.ends
    have empty := (inv.2 ended.stopped).channels
    refine ⟨fun c => ?_, fun stopped => ?_⟩
    · rw [State.endStartUp_chan]
      exact ⟨bounds, (empty c).2.le.trans (Nat.zero_le _)⟩
    · rw [State.endStartUp_running] at stopped
      cases stopped

/-- Settles O59: three invariants, each from what a step can do (`step_cases`). -/
theorem portsAndJobsStayInStep : Obligations.PortsAndJobsStayInStep := by
  unfold Obligations.PortsAndJobsStayInStep
  exact ⟨jobQueueBounded_kept, portsFollowChannels_kept, selectorsInRange_kept⟩

end Sys2Proof.Machine
end

section
/-! PROOFS. Lane bytes: how the receiver takes them one by one, finds the sync marker, collects a header and a frame, and how
these are judged. The facts about the operations come first; the statements follow. -/

namespace Sys2Proof.Machine

variable (s : State)

theorem exec_syncMarkerFound (c : Port) (bytes : List Byte) :
    exec (.syncMarkerFound c bytes) s = .next (s.hearLane c { bytes := bytes, together := false }) := rfl

/-! ### Updates of one port -/

/-- Writing back what a channel is changes nothing. -/
theorem State.setChan_self (c : Port) : s.setChan c (s.chan c) = s := by
  have same : s.chans.set c (s.chan c) = s.chans := by
    ext i h
    rw [Vector.getElem_set]
    split
    · rename_i e; subst e; rfl
    · rfl
  simp only [State.setChan, same]

/-- A change that leaves the port as it stands leaves the state. -/
theorem State.onPort_self (c : Port) (f : FeedPort → FeedPort) (h : f (s.chan c).port = (s.chan c).port) :
    s.onPort c f = s := by
  simp only [State.onPort, h]
  exact s.setChan_self c

/-! ### Lane bytes one by one (R15 to R18) -/

theorem State.hearLane_unheard (c : Port) (x : LaneBytes) (h : (s.chan c).port.receives = false) :
    s.hearLane c x = s := by
  simp only [State.hearLane, h, Bool.false_eq_true, if_false]

theorem FeedPort.receives_eq_false (p : FeedPort)
    (h : p.opened = false ∨ (p.gating = true ∧ p.debPresence = false)) : p.receives = false := by
  rcases h with closed | ⟨gating, absent⟩
  · simp [FeedPort.receives, closed]
  · simp [FeedPort.receives, gating, absent]

theorem State.laneBytes_nil (c : Port) : s.laneBytes c [] = s := rfl

theorem State.laneBytes_cons (c : Port) (b : Byte) (bytes : List Byte) :
    s.laneBytes c (b :: bytes) = (s.laneByte c b).laneBytes c bytes := rfl

theorem State.laneBytes_snoc (c : Port) (bytes : List Byte) (b : Byte) :
    s.laneBytes c (bytes ++ [b]) = (s.laneBytes c bytes).laneByte c b := by
  simp only [State.laneBytes, List.foldl_append, List.foldl_cons, List.foldl_nil]

/-- The byte that completes the marker begins a header (R16). -/
theorem State.laneByte_marker (c : Port) (seen : List Byte) (b : Byte) (heard : (s.chan c).port.receives = true)
    (hunts : (s.chan c).port.rx = .hunt seen) (marker : seen ++ [b] = syncMarker) :
    s.laneByte c b = s.onPort c fun p => { p with rx := .header [] } := by
  simp only [State.laneByte, heard, hunts, if_pos marker, Bool.not_true, Bool.false_eq_true, if_false]

/-- A receiver that collects the bytes of a port up to the `n`-th and then judges them. -/
def Collects (c : Port) (holding : List Byte → Receiver) (n : Nat) (judge : List Byte → State → State) : Prop :=
  ∀ (s : State) (got : List Byte) (b : Byte), (s.chan c).port.receives = true → (s.chan c).port.rx = holding got →
    s.laneByte c b = if got.length + 1 = n then judge (got ++ [b]) s
      else s.onPort c fun p => { p with rx := holding (got ++ [b]) }

/-- A header is collected up to its sixteenth byte (R17). -/
theorem collects_header (c : Port) : Collects c .header 16 (State.judgeHeader c) := by
  intro s got b heard collects
  simp only [State.laneByte, heard, collects, List.length_append, List.length_singleton, Bool.not_true,
    Bool.false_eq_true, if_false]

/-- A frame is collected up to the last byte of its payload check (R18). -/
theorem collects_payload (c : Port) (h : Header) :
    Collects c (.payload h) (h.length + 4) (State.judgeFrame c h) := by
  intro s got b heard collects
  simp only [State.laneByte, heard, collects, List.length_append, List.length_singleton, Bool.not_true,
    Bool.false_eq_true, if_false]

/-- Bytes short of the last are collected. -/
theorem Collects.laneBytes_short {c : Port} {holding : List Byte → Receiver} {n : Nat}
    {judge : List Byte → State → State} (rule : Collects c holding n judge) (s : State) (got bytes : List Byte)
    (heard : (s.chan c).port.receives = true) (collects : (s.chan c).port.rx = holding got)
    (short : (got ++ bytes).length < n) :
    s.laneBytes c bytes = s.onPort c fun p => { p with rx := holding (got ++ bytes) } := by
  induction bytes generalizing s got with
  | nil => rw [State.laneBytes_nil, List.append_nil, State.onPort_self _ _ _ (by rw [← collects])]
  | cons b bytes ih =>
    simp only [List.length_append, List.length_cons] at short
    rw [State.laneBytes_cons, rule s got b heard collects, if_neg (by omega),
      ih _ (got ++ [b]) (by rw [State.onPort_chan]; exact heard) (by rw [State.onPort_chan]) (by simp; omega),
      State.onPort_onPort, List.append_assoc]
    rfl

/-- The receiver as it stands hears the bytes, unless they end what an expiry has interrupted (log 31). -/
theorem State.hearLane_standing (c : Port) (x : LaneBytes) (heard : (s.chan c).port.receives = true)
    (stands : (s.chan c).port.receiverFor x = (s.chan c).port.rx) :
    s.hearLane c x = (s.onPort c fun p => { p with interrupted := .hunt [] }).laneBytes c x.bytes := by
  rw [s.hearLane_of_receives c x heard]
  congr 1
  apply State.onPort_congr
  rw [stands]

/-- A receiver that is collecting is never replaced by one that an expiry has interrupted. -/
theorem FeedPort.receiverFor_of_collecting (x : LaneBytes) (p : FeedPort) (h : p.rx ≠ .hunt []) :
    p.receiverFor x = p.rx := by
  simp [FeedPort.receiverFor, h]

/-- The last byte: what was collected is judged, whatever the receiver is set to before that. -/
theorem Collects.hearLane_full {c : Port} {holding : List Byte → Receiver} {n : Nat}
    {judge : List Byte → State → State} (rule : Collects c holding n judge) (s : State) (got : List Byte) (x : LaneBytes)
    (heard : (s.chan c).port.receives = true) (collects : (s.chan c).port.rx = holding got)
    (collecting : holding got ≠ .hunt []) (nonempty : x.bytes ≠ []) (full : (got ++ x.bytes).length = n) :
    ∃ before, s.hearLane c x =
      judge (got ++ x.bytes) (s.onPort c fun p => { p with rx := before, interrupted := .hunt [] }) := by
  obtain ⟨first, last, bytes⟩ : ∃ first last, x.bytes = first ++ [last] :=
    ⟨_, _, (List.dropLast_append_getLast nonempty).symm⟩
  rw [bytes] at full ⊢
  simp only [List.length_append, List.length_singleton] at full
  refine ⟨holding (got ++ first), ?_⟩
  rw [s.hearLane_standing c x heard (FeedPort.receiverFor_of_collecting _ _ (collects ▸ collecting)), bytes,
    State.laneBytes_snoc, rule.laneBytes_short _ got first (by rw [State.onPort_chan]; exact heard)
      (by rw [State.onPort_chan]; exact collects) (by simp; omega), State.onPort_onPort,
    rule _ (got ++ first) last (by rw [State.onPort_chan]; exact heard) (by rw [State.onPort_chan]),
    if_pos (by simp; omega), List.append_assoc]

/-! ### The hunt for the sync marker (R16) -/

/-- The bytes that the next comparison will use: the last three. -/
def lastThree (l : List Byte) : List Byte := l.drop (l.length - 3)

theorem lastThree_of_short (l : List Byte) (h : l.length ≤ 3) : lastThree l = l := by
  simp [lastThree, Nat.sub_eq_zero_of_le h]

theorem length_lastThree_le (l : List Byte) : (lastThree l).length ≤ 3 := by
  simp only [lastThree, List.length_drop]
  omega

theorem lastThree_suffix (l : List Byte) : lastThree l <:+ l := List.drop_suffix _ _

/-- Keeping the last three of a part and then of the rest keeps the last three of the whole. -/
theorem lastThree_lastThree_append (l m : List Byte) : lastThree (lastThree l ++ m) = lastThree (l ++ m) := by
  have cut : lastThree l ++ m = (l ++ m).drop (l.length - 3) :=
    (List.drop_append_of_le_length (Nat.sub_le _ _)).symm
  rw [cut, lastThree, lastThree, List.drop_drop, List.length_drop, List.length_append]
  congr 1
  omega

/-- Before the marker's last byte, bytes that hold no marker leave the receiver hunting with the last three. -/
theorem State.laneBytes_hunting (c : Port) (seen bytes : List Byte) (heard : (s.chan c).port.receives = true)
    (hunts : (s.chan c).port.rx = .hunt seen) (short : seen.length ≤ 3) (absent : ¬ syncMarker <:+: seen ++ bytes) :
    s.laneBytes c bytes = s.onPort c fun p => { p with rx := .hunt (lastThree (seen ++ bytes)) } := by
  induction bytes generalizing s seen with
  | nil =>
    rw [State.laneBytes_nil, List.append_nil, lastThree_of_short _ short, State.onPort_self _ _ _ (by rw [← hunts])]
  | cons b bytes ih =>
    rw [List.append_cons] at absent ⊢
    have no : seen ++ [b] ≠ syncMarker := fun marker => absent (marker ▸ (List.prefix_append _ _).isInfix)
    have kept : lastThree (seen ++ [b]) ++ bytes <:+ seen ++ [b] ++ bytes := by
      obtain ⟨cut, whole⟩ := lastThree_suffix (seen ++ [b])
      exact ⟨cut, by rw [← List.append_assoc, whole]⟩
    rw [State.laneBytes_cons, s.laneByte_hunting c seen b heard hunts no,
      ih _ (lastThree (seen ++ [b])) (by rw [State.onPort_chan]; exact heard) (by rw [State.onPort_chan]; rfl)
        (length_lastThree_le _) (fun marker => absent (marker.trans kept.isInfix)),
      State.onPort_onPort, lastThree_lastThree_append]

/-- A marker at the end is the last byte behind the three that were kept. -/
theorem lastThree_append_of_marker (l : List Byte) (b : Byte) (h : syncMarker <:+ l ++ [b]) :
    lastThree l ++ [b] = syncMarker := by
  obtain ⟨before, whole⟩ := h
  have parts : syncMarker = [0x4E#8, 0x1B#8, 0x72#8] ++ [0xD8#8] := rfl
  rw [parts, ← List.append_assoc] at whole
  obtain ⟨rfl, last⟩ := List.append_inj' whole rfl
  rw [← last, parts]
  simp [lastThree]

/-! ### Judging headers and frames (R17 to R22) -/

theorem State.judgeHeader_good (c : Port) (got : List Byte) (good : headerGood got = true) :
    s.judgeHeader c got = s.onPort c fun p => { p with rx := .payload (parseHeader got) [] } := by
  simp only [State.judgeHeader, good, if_true]

theorem State.judgeHeader_bad (c : Port) (got : List Byte) (bad : headerGood got = false) :
    s.judgeHeader c got = (s.onPort c fun p => { p with rx := .hunt [] }).corruptOutcome c := by
  simp only [State.judgeHeader, bad, Bool.false_eq_true, if_false]

theorem State.judgeFrame_corrupt (c : Port) (h : Header) (got : List Byte)
    (bad : crc32 (got.take h.length) ≠ field got h.length 4) :
    s.judgeFrame c h got = (s.onPort c fun p => { p with rx := .hunt [] }).corruptOutcome c := by
  simp only [State.judgeFrame, if_neg bad]

theorem State.judgeFrame_good (c : Port) (h : Header) (got : List Byte)
    (good : crc32 (got.take h.length) = field got h.length 4) :
    s.judgeFrame c h got = (s.onPort c fun p => { p with rx := .hunt [] }).goodFrame c h (got.take h.length) := by
  simp only [State.judgeFrame, if_pos good]

theorem State.goodFrame_foreign (c : Port) (h : Header) (payload : List Byte)
    (other : (s.chan c).port.feedId ≠ some h.feedId) :
    s.goodFrame c h payload = s.onPort c fun p => { p with foreign := satInc p.foreign } := by
  simp only [State.goodFrame, if_neg other]

theorem State.goodFrame_accepted (c : Port) (h : Header) (payload : List Byte)
    (own : (s.chan c).port.feedId = some h.feedId) : s.goodFrame c h payload = s.acceptFrame c h payload := by
  simp only [State.goodFrame, if_pos own]

theorem State.corruptOutcome_counts (c : Port) (few : (s.chan c).port.consecBad + 1 ≠ 16) :
    s.corruptOutcome c =
      s.onPort c fun p => { p with corrupt := satInc p.corrupt, consecBad := p.consecBad + 1 } := by
  simp only [State.corruptOutcome, State.onPort_chan, if_neg few]

/-- The sixteenth CORRUPT outcome in a row is a FEED FAULT (R22). -/
theorem State.corruptOutcome_faults (c : Port) (many : (s.chan c).port.consecBad + 1 = 16) :
    s.corruptOutcome c =
      State.feedFault c (s.onPort c fun p => { p with corrupt := satInc p.corrupt, consecBad := 16 }) := by
  simp only [State.corruptOutcome, State.onPort_chan, if_pos many]
  congr 1
  apply State.onPort_congr
  rw [many]

theorem headerGood_eq_false (header : List Byte) : headerGood header = false ↔
    crc16 (header.take 14) ≠ field header 14 2 ∨ field header 8 3 = 0 ∨ 1048576 < field header 8 3 := by
  simp only [headerGood, Bool.and_eq_false_iff, decide_eq_false_iff_not, or_assoc, Nat.not_le, Nat.lt_one_iff]

/-- A corrupt outcome of a receiver that has come to its last byte: it counts, or it is the sixteenth in a row. -/
theorem State.corruptOutcome_of_judged (c : Port) (before : Receiver) :
    let judged := State.corruptOutcome c
      ((s.onPort c fun p => { p with rx := before, interrupted := .hunt [] }).onPort c fun p => { p with rx := .hunt [] })
    ((s.chan c).port.consecBad + 1 ≠ 16 → judged = s.onPort c fun p =>
      { p with
        rx := .hunt [], interrupted := .hunt [], corrupt := min 65535 (p.corrupt + 1), consecBad := p.consecBad + 1 }) ∧
    ((s.chan c).port.consecBad + 1 = 16 → judged = State.feedFault c (s.onPort c fun p =>
      { p with rx := .hunt [], interrupted := .hunt [], corrupt := min 65535 (p.corrupt + 1), consecBad := 16 })) := by
  dsimp only
  rw [State.onPort_onPort]
  constructor
  · intro few
    rw [State.corruptOutcome_counts _ c (by rw [State.onPort_chan]; exact few), State.onPort_onPort]
    rfl
  · intro many
    rw [State.corruptOutcome_faults _ c (by rw [State.onPort_chan]; exact many), State.onPort_onPort]
    rfl

/-! ### Accepted frames (R20, R21, R28) -/

theorem State.feedBack_of_first (c : Port) (first : (s.chan c).port.firstSinceArm = true) :
    s.feedBack c = (State.retally c (s.onPort c fun p => { p with feed := .live, firstSinceArm := false })).onTake c
      fun t => { t with holdOver := 0 } := by
  simp only [State.feedBack, if_pos first]

theorem State.feedBack_of_later (c : Port) (later : (s.chan c).port.firstSinceArm = false) :
    s.feedBack c = State.onTake c (fun t => { t with holdOver := 0 })
      ((State.retally c (s.onPort c fun p => { p with feed := .live, firstSinceArm := false })).channelNotice
        .feedBack 0x00#8 c) := by
  simp only [State.feedBack, later, Bool.false_eq_true, if_false]

theorem State.frameArrival_of_none (c : Port) (f : FrameRecord) (h : s.openRecord c = none) :
    s.frameArrival c f = s.onSync c fun _ => ((s.chan c).sync.arrive f).sync := by
  simp only [State.frameArrival]
  exact State.countOpen_of_none _ c _ (by rw [State.openRecord_onSync, h])

theorem State.frameArrival_of_some (c : Port) (f : FrameRecord) (i : RecIx) (h : s.openRecord c = some i) :
    s.frameArrival c f = State.onRec i
      (Record.count fun n =>
        { n with
          skipped := satAdd n.skipped ((s.chan c).sync.arrive f).skipped
          late := satAdd n.late ((s.chan c).sync.arrive f).late })
      (s.onSync c fun _ => ((s.chan c).sync.arrive f).sync) := by
  simp only [State.frameArrival]
  exact State.countOpen_of_some _ c _ i (by rw [State.openRecord_onSync, h])

/-! ### The statements about lane bytes -/

/-- Settles O12: a port that does not receive hears nothing. -/
theorem unheardLaneBytesChangeNothing : Obligations.UnheardLaneBytesChangeNothing := by
  unfold Obligations.UnheardLaneBytesChangeNothing
  intro s c bytes unheard
  have silent := FeedPort.receives_eq_false _ unheard
  refine ⟨?_, fun together => ⟨?_, ?_⟩⟩
  · rw [exec_syncMarkerFound, s.hearLane_unheard c _ silent]
  · rw [exec_headerJudged, s.hearLane_unheard c _ silent]
  · rw [exec_frameComplete, s.hearLane_unheard c _ silent]

/-- Settles O13: the bytes before the marker's last leave its first three behind, whatever the offset. -/
theorem syncMarkerFoundAtAnyOffset : Obligations.SyncMarkerFoundAtAnyOffset := by
  unfold Obligations.SyncMarkerFoundAtAnyOffset
  intro s c seen bytes heard hunts short nonempty found first
  obtain ⟨before, last, rfl⟩ : ∃ before last, bytes = before ++ [last] :=
    ⟨_, _, (List.dropLast_append_getLast nonempty).symm⟩
  rw [← List.append_assoc] at found first
  rw [List.dropLast_concat] at first
  rw [exec_syncMarkerFound, s.hearLane_standing c _ heard (FeedPort.receiverFor_apart _ _), State.laneBytes_snoc,
    State.laneBytes_hunting _ c seen before (by rw [State.onPort_chan]; exact heard)
      (by rw [State.onPort_chan]; exact hunts) short first,
    State.onPort_onPort,
    State.laneByte_marker _ c (lastThree (seen ++ before)) last (by rw [State.onPort_chan]; exact heard)
      (by rw [State.onPort_chan]) (lastThree_append_of_marker _ _ found),
    State.onPort_onPort]

/-- Settles O14: the bytes are collected up to the last, and then the header or the frame is judged. -/
theorem headersAndFramesJudged : Obligations.HeadersAndFramesJudged := by
  unfold Obligations.HeadersAndFramesJudged
  refine ⟨fun s c got bytes together heard collects nonempty full => ?_,
    fun s c h got bytes together heard collects nonempty full => ?_, headerGood_eq_false⟩
  · obtain ⟨before, judged⟩ :=
      (collects_header c).hearLane_full s got ⟨bytes, together⟩ heard collects nofun nonempty full
    dsimp only at judged ⊢
    rw [exec_headerJudged, judged]
    refine ⟨fun good => ?_, fun bad few => ?_, fun bad many => ?_⟩
    · rw [State.judgeHeader_good _ c _ good, State.onPort_onPort]
    · rw [State.judgeHeader_bad _ c _ bad, (s.corruptOutcome_of_judged c before).1 few]
    · rw [State.judgeHeader_bad _ c _ bad, (s.corruptOutcome_of_judged c before).2 many]
  · obtain ⟨before, judged⟩ :=
      (collects_payload c h).hearLane_full s got ⟨bytes, together⟩ heard collects nofun nonempty full
    dsimp only at judged ⊢
    rw [exec_frameComplete, judged]
    refine ⟨fun bad few => ?_, fun bad many => ?_, fun good other => ?_⟩
    · rw [State.judgeFrame_corrupt _ c h _ bad, (s.corruptOutcome_of_judged c before).1 few]
    · rw [State.judgeFrame_corrupt _ c h _ bad, (s.corruptOutcome_of_judged c before).2 many]
    · rw [State.judgeFrame_good _ c h _ good, State.onPort_onPort,
        State.goodFrame_foreign _ c h _ (by rw [State.onPort_chan]; exact other), State.onPort_onPort]
      rfl

/-- Settles O15: a good frame of the port's own feed is accepted, and what FEED BACK and the arrival do. -/
theorem frameAccepted : Obligations.FrameAccepted := by
  unfold Obligations.FrameAccepted
  refine ⟨fun s c h got bytes together heard collects nonempty full good own => ?_,
    fun s c => ⟨s.feedBack_of_first c, s.feedBack_of_later c⟩,
    fun s c f => ⟨s.frameArrival_of_none c f, s.frameArrival_of_some c f⟩⟩
  obtain ⟨before, judged⟩ :=
    (collects_payload c h).hearLane_full s got ⟨bytes, together⟩ heard collects nofun nonempty full
  dsimp only at judged ⊢
  rw [exec_frameComplete, judged, State.judgeFrame_good _ c h _ good, State.onPort_onPort,
    State.goodFrame_accepted _ c h _ (by rw [State.onPort_chan]; exact own)]
  simp only [State.acceptFrame, State.onPort_onPort, State.onPort_chan]
  rfl

end Sys2Proof.Machine
end

section
/-! PROOFS. FEED FAULT and the tally, RESET CHANNEL with the records it frees, and the invariants of the reset state. -/

namespace Sys2Proof.Machine

variable (s : State)

/-! ### The tally (R31) -/

/-- The first row of R31's table that applies, row by row. -/
theorem tallyOf_eq (fault : Bool) (st : ChannelState) (feed : FeedCondition) :
    tallyOf fault st feed =
      if fault = true then .alert
      else if st = .idle then .off
      else if feed ≠ .live then .alert
      else if st = .armed then .ready
      else .on := by
  cases fault <;> cases st <;> cases feed <;> rfl

/-- At phase 0 every tally but OFF is lit (R32). -/
theorem tallyLit_zero (t : TallyState) : tallyLit t 0 = decide (t ≠ .off) := by cases t <;> rfl

theorem State.retally_of_same (c : Port)
    (h : (s.chan c).port.tally = tallyOf (s.chan c).port.faultMark (s.chan c).take.st (s.chan c).port.feed) :
    s.retally c = s := by
  simp only [State.retally, if_pos h.symm]

theorem State.retally_of_new (c : Port)
    (h : (s.chan c).port.tally ≠ tallyOf (s.chan c).port.faultMark (s.chan c).take.st (s.chan c).port.feed) :
    s.retally c = s.onPort c fun p =>
      { p with
        tally := tallyOf (s.chan c).port.faultMark (s.chan c).take.st (s.chan c).port.feed, tallyPhase := 0
        tallyOut := tallyLevel s.status.cfg.activeLow
          (tallyLit (tallyOf (s.chan c).port.faultMark (s.chan c).take.st (s.chan c).port.feed) 0) } := by
  simp only [State.retally, if_neg (Ne.symm h)]

/-! ### The channel after a FEED FAULT (R22, R72) -/

theorem Channel.eq_mk {x : Channel} {p : FeedPort} {y : Synchroniser} {t : TakeController} {l : Selector}
    (port : x.port = p) (sync : x.sync = y) (take : x.take = t) (sel : x.sel = l) :
    x = { port := p, sync := y, take := t, sel := l } := by
  subst port sync take sel
  rfl

/-- The channel that a FEED FAULT leaves, but for the phase and the level of its tally output. -/
theorem State.feedFault_chan (c : Port) : ∃ phase out, (s.feedFault c).chan c =
    { port := { (s.chan c).port.close with faultMark := true, tally := .alert, tallyPhase := phase, tallyOut := out }
      sync := (s.chan c).sync.seek, take := (s.chan c).take.toIdle, sel := (s.chan c).sel } := by
  obtain ⟨u, aside, shape⟩ := s.feedFault_shape c
  have chan : (u.onTake c TakeController.toIdle).chan c =
      { (s.chan c).shut true with take := (s.chan c).take.toIdle } := by
    rw [State.onTake_chan, aside.chan, State.chan_setChan_same]
    rfl
  obtain ⟨phase, out, port⟩ := (u.onTake c TakeController.toIdle).retally_port c
  refine ⟨phase, out, ?_⟩
  rw [shape]
  apply Channel.eq_mk
  · rw [port, chan]; rfl
  · rw [State.retally_sync, chan]; rfl
  · rw [State.retally_take, chan]
  · rw [State.retally_sel, chan]; rfl

theorem State.feedFault_chan_other {c d : Port} (h : d ≠ c) : (s.feedFault c).chan d = s.chan d := by
  obtain ⟨u, aside, shape⟩ := s.feedFault_shape c
  rw [shape, State.retally_chan_other _ h, State.onTake_chan_other _ _ h, aside.chan, State.chan_setChan_other _ _ h]

/-- Settles O17: the channel, the frame and the two forms of FEED FAULT, and the one evaluation of the tally. -/
theorem feedFaultClosesTheChannel : Obligations.FeedFaultClosesTheChannel := by
  unfold Obligations.FeedFaultClosesTheChannel
  refine ⟨fun s c => ?channel, fun s c => ⟨fun taking => s.feedFault_of_taking c taking, fun resting => ?resting⟩,
    fun s c => ?tally⟩
  case channel =>
    obtain ⟨phase, out, chan⟩ := s.feedFault_chan c
    rw [chan]
    exact ⟨⟨rfl, rfl, rfl, rfl, rfl, rfl, rfl⟩, rfl, rfl, fun d h => s.feedFault_chan_other h,
      (s.feedFault_keeps c).ref⟩
  case resting =>
    refine s.feedFault_of_not_taking c ?_
    rcases resting with st | st <;> simp [st]
  case tally =>
    dsimp only
    rw [← tallyOf_eq, ← tallyLit_zero, ← tallyLevel_eq]
    exact ⟨s.retally_of_same c, s.retally_of_new c⟩

/-! ### RESET CHANNEL (R73, R96, R114) -/

/-- The records of a channel that RESET CHANNEL frees (R96). -/
def State.resets (c : Port) (s : State) (i : RecIx) : Bool := (s.record i).channel == c && freedByReset (s.record i).st

/-- The job queue without the jobs of some records; the job in progress stays, marked withdrawn (R114). -/
def BrowseUnit.without (gone : RecIx → Bool) (b : BrowseUnit) : List Job :=
  match b.coder, b.jobs with
  | .coding _, j :: rest =>
    (if gone j.record = true then { j with withdrawn := true } else j) ::
      rest.filter fun x => x.withdrawn || !gone x.record
  | _, js => js.filter fun x => x.withdrawn || !gone x.record

/-- The segment table with some records cleared (R78). -/
def State.clearedRecords (gone : List RecIx) (s : State) : Vector Record 64 :=
  Vector.ofFn fun i => if i ∈ gone then Record.cleared else s.record i

/-- The pages of some records, in the order in which freeing them returns the pages (R79). -/
def State.pagesOf (gone : List RecIx) (s : State) : List Nat :=
  gone.flatMap fun i => (s.record i).essPages ++ (s.record i).brwPages

/-- The state with some records freed, in the order of a list of records, and their jobs withdrawn. -/
def State.freeAll (gone : List RecIx) (s : State) : State :=
  { s with
    pool := { s.pool with records := s.clearedRecords gone, free := s.pool.free ++ s.pagesOf gone }
    browse := { s.browse with jobs := s.browse.without fun i => decide (i ∈ gone) } }

theorem State.freeAll_record (gone : List RecIx) (i : RecIx) :
    (s.freeAll gone).record i = if i ∈ gone then Record.cleared else s.record i := by
  simp [State.record, State.freeAll, State.clearedRecords, Vector.get_eq_getElem]

theorem State.pagesOf_snoc (gone : List RecIx) (i : RecIx) :
    s.pagesOf (gone ++ [i]) = s.pagesOf gone ++ ((s.record i).essPages ++ (s.record i).brwPages) := by
  simp only [State.pagesOf, List.flatMap_append, List.flatMap_singleton]

theorem State.clearedRecords_nil : s.clearedRecords [] = s.pool.records := by
  apply Vector.ext
  intro k h
  simp [State.clearedRecords, State.record, Vector.get_eq_getElem]

theorem State.clearedRecords_snoc (gone : List RecIx) (i : RecIx) :
    (s.clearedRecords gone).set i Record.cleared = s.clearedRecords (gone ++ [i]) := by
  apply Vector.ext
  intro k h
  simp only [State.clearedRecords, Vector.getElem_set, Vector.getElem_ofFn, List.mem_append, List.mem_singleton]
  by_cases same : (i : Nat) = k
  · simp [same, Fin.ext_iff]
  · simp [same, Fin.ext_iff, Ne.symm same]

theorem BrowseUnit.without_none (b : BrowseUnit) : b.without (fun _ => false) = b.jobs := by
  unfold BrowseUnit.without
  split
  · rename_i jobs
    simp [jobs]
  · simp

/-- Withdrawing the jobs of one more record. -/
theorem withdrawJobs_without (gone : RecIx → Bool) (i : RecIx) (b : BrowseUnit) :
    withdrawJobs i { b with jobs := b.without gone } = b.without fun k => gone k || k == i := by
  have both : ∀ js : List Job, (js.filter fun x => x.withdrawn || !gone x.record).filter (fun x => !x.pendingFor i) =
      js.filter fun x => x.withdrawn || !(gone x.record || x.record == i) := by
    intro js
    rw [List.filter_filter]
    congr 1
    funext x
    cases withdrawn : x.withdrawn <;> simp [Job.pendingFor, withdrawn, Bool.and_comm]
  obtain ⟨jobs, coder⟩ := b
  cases coder with
  | idle => exact both jobs
  | coding q =>
    cases jobs with
    | nil => rfl
    | cons j rest =>
      have head : (if Job.pendingFor i (if gone j.record = true then { j with withdrawn := true } else j) = true then
            { (if gone j.record = true then { j with withdrawn := true } else j) with withdrawn := true }
          else if gone j.record = true then { j with withdrawn := true } else j) =
          if (gone j.record || j.record == i) = true then { j with withdrawn := true } else j := by
        obtain ⟨channel, record, entry, offset, length, withdrawn⟩ := j
        by_cases already : gone record = true
        · simp [already, Job.pendingFor]
        · cases withdrawn <;> simp [already, Job.pendingFor]
      simp only [BrowseUnit.without, withdrawJobs, both, head]

theorem State.freeAll_nil : s.freeAll [] = s := by
  simp only [State.freeAll, State.clearedRecords_nil, State.pagesOf, List.not_mem_nil, decide_false,
    BrowseUnit.without_none, List.flatMap_nil, List.append_nil]

theorem State.withdraw_freeRecord (i : RecIx) : (s.withdraw i).freeRecord i =
    { s with
      pool :=
        { s.pool with
          records := s.pool.records.set i Record.cleared
          free := s.pool.free ++ (s.record i).essPages ++ (s.record i).brwPages }
      browse := { s.browse with jobs := withdrawJobs i s.browse } } := rfl

/-- One more record that is not freed yet. -/
theorem State.freeAll_snoc (gone : List RecIx) (i : RecIx) (new : i ∉ gone) :
    ((s.freeAll gone).withdraw i).freeRecord i = s.freeAll (gone ++ [i]) := by
  have standing : (s.freeAll gone).record i = s.record i := by rw [State.freeAll_record, if_neg new]
  have jobs : (fun k => decide (k ∈ gone) || k == i) = fun k => decide (k ∈ gone ++ [i]) := by
    funext k
    simp only [List.mem_append, List.mem_singleton, Bool.decide_or, beq_eq_decide]
  rw [State.withdraw_freeRecord, standing]
  simp only [State.freeAll, State.clearedRecords_snoc, State.pagesOf_snoc, withdrawJobs_without, jobs, List.append_assoc]

/-- RESET CHANNEL frees the records of its channel in index order (R96). -/
theorem State.resetRecords_eq (c : Port) (l : List RecIx) (once : l.Nodup) :
    l.foldl (State.resetRecord c) s = s.freeAll (l.filter (s.resets c)) := by
  induction l using List.reverseRecOn with
  | nil => exact s.freeAll_nil.symm
  | append_singleton l i ih =>
    obtain ⟨init, _, apart⟩ := List.nodup_append'.1 once
    have new : i ∉ l.filter (s.resets c) := fun h =>
      apart (List.mem_filter.1 h).1 (List.mem_singleton_self i)
    rw [List.foldl_append, ih init, List.foldl_cons, List.foldl_nil, List.filter_append, State.resetRecord,
      State.freeAll_record, if_neg new]
    by_cases mine : s.resets c i = true
    · rw [if_pos (by simpa [State.resets] using mine), State.freeAll_snoc _ _ _ new]
      simp [mine]
    · rw [if_neg (by simpa [State.resets] using mine)]
      simp [mine]

/-- A channel as RESET CHANNEL closes it: CLOSED and IDLE with no fault mark and no cue (R30, R51, R73). -/
def Channel.closedByReset (x : Channel) : Channel :=
  { port := { x.port.close with faultMark := false }, sync := x.sync.seek
    take := { x.take.toIdle with cueEmpty := false }, sel := x.sel }

theorem State.closedByReset_eq (c : Port) :
    ((s.closeChannel c).onPort c fun p => { p with faultMark := false }).onTake c (fun t => { t with cueEmpty := false }) =
      s.setChan c (s.chan c).closedByReset := by
  rw [State.closeChannel_eq]
  simp only [State.onPort, State.onTake, State.chan_setChan_same, State.setChan_setChan, Channel.closedByReset]

theorem freedByReset_eq (st : RecState) :
    freedByReset st = (st == .opened || st == .closing || st == .deciding || st == .held) := by cases st <;> rfl

/-- A command to this station that brings its payload acts and is answered (R175, R176). -/
theorem State.command_of_station (kind : Byte) (need : Nat) (viaFeed viaAll : Bool) (channel : Byte)
    (act : State → Taken) (m : Heard) (v : BitVec 16) (accepted : s.accepts m = true) (target : m.target = .station v)
    (enough : need ≤ m.payload.length) :
    s.command kind need viaFeed viaAll channel act m =
      (act s).state.reply m.sender (act s).code (act s).adjusted channel kind := by
  simp only [State.command, accepted, target, if_true, if_neg (Nat.not_lt.mpr enough)]

/-- All the records that pass a test are freed. -/
theorem State.freeAll_filter (p : RecIx → Bool) : s.freeAll (allRecs.filter p) =
    { s with
      pool :=
        { s.pool with
          records := Vector.ofFn fun i => if p i = true then Record.cleared else s.record i
          free := s.pool.free ++ (allRecs.filter p).flatMap fun i => (s.record i).essPages ++ (s.record i).brwPages }
      browse := { s.browse with jobs := s.browse.without p } } := by
  simp only [State.freeAll, State.clearedRecords, State.pagesOf, List.mem_filter, mem_allRecs, true_and,
    Bool.decide_eq_true]

/-- What RESET CHANNEL leaves, before its REPLY (R73). -/
theorem State.resetChannelCommand_eq (c : Port) : s.resetChannelCommand c =
    (((s.setChan c (s.chan c).closedByReset).freeAll (allRecs.filter (s.resets c))).retally c).done := by
  have resets : (s.setChan c (s.chan c).closedByReset).resets c = s.resets c := funext fun i => by
    rw [State.resets, State.setChan_record, State.resets]
  rw [State.resetChannelCommand, State.closedByReset_eq, State.resetRecords_eq _ c allRecs (List.nodup_finRange 64),
    resets]

theorem exec_resetChannel (m : Heard) : exec (.resetChannel m) s = .next (s.hearResetChannel m) := rfl

/-- Settles O26: the channel is closed, its records are freed one by one, and the tally is evaluated once. -/
theorem resetChannelFreesItsRecords : Obligations.ResetChannelFreesItsRecords := by
  unfold Obligations.ResetChannelFreesItsRecords
  constructor
  · intro s m v c accepted target nonempty port
    dsimp only
    rw [exec_resetChannel, State.hearResetChannel,
      s.command_of_station _ 1 _ _ _ _ m v accepted target (List.length_pos_iff.2 nonempty), port, State.onChannel,
      s.resetChannelCommand_eq c]
    have mine : ∀ i, ((s.record i).channel == c && ((s.record i).st == .opened || (s.record i).st == .closing ||
        (s.record i).st == .deciding || (s.record i).st == .held)) = s.resets c i := fun i => by
      rw [State.resets, freedByReset_eq]
    simp only [mine, State.freeAll_filter, State.setChan_record]
    rfl
  · intro s m v accepted target nonempty above
    rw [exec_resetChannel, State.hearResetChannel,
      s.command_of_station _ 1 _ _ _ _ m v accepted target (List.length_pos_iff.2 nonempty), above]
    rfl

/-! ### The reset state -/

theorem State.reset_record (i : RecIx) : State.reset.record i = Record.cleared := State.assertReset_record State.reset i
theorem State.reset_tag (k : TagIx) : State.reset.tag k = .free := State.assertReset_tag State.reset k
theorem State.reset_chan (c : Port) : State.reset.chan c = Channel.reset builtInConfiguration.params :=
  State.assertReset_chan State.reset c

theorem damageKept_reset : DamageKept State.reset := fun i => by
  rw [State.reset_record]
  rfl

theorem transmitQueueOrdered_reset : TransmitQueueOrdered State.reset :=
  ⟨Nat.zero_le _, List.Pairwise.nil, fun _ h => absurd h List.not_mem_nil⟩

theorem portsFollowChannels_reset : PortsFollowChannels State.reset := fun c => by
  rw [State.reset_chan]
  decide

theorem selectorsInRange_reset : SelectorsInRange State.reset := by
  refine (selectorsInRange_iff _).2 ⟨fun c => ?_, fun _ => State.reset.assertReset_asleep⟩
  rw [State.reset_chan]
  exact ⟨by decide, by decide⟩

/-- All pages stand on the free list, each once, and no record holds any. -/
theorem eachPageOnce_reset : EachPageOnce State.reset := fun p => by
  have free : State.reset.pool.free = List.range' 0 16384 := rfl
  simp only [pageCount, State.reset_record, free, Record.cleared, List.count_nil, Nat.add_zero,
    Finset.sum_const_zero]
  rw [(List.nodup_range' (s := 0) (n := 16384)).count]
  simp

theorem poolInOrder_reset : PoolInOrder State.reset := by
  refine ⟨eachPageOnce_reset, fun i _ => State.reset_record i, fun i => ?_, fun i queued => ?_, fun k q timer held => ?_⟩
  · rw [State.reset_record]
    exact ⟨rfl, fun _ _ => rfl⟩
  · exact absurd queued List.not_mem_nil
  · rw [State.reset_tag] at held
    cases held

/-- Settles O55: each invariant of the reset state, read off its tables. -/
theorem invariantsHoldAtReset : Obligations.InvariantsHoldAtReset :=
  ⟨State.reset_mem_wf, damageKept_reset, transmitQueueOrdered_reset, Nat.zero_le _, portsFollowChannels_reset,
    selectorsInRange_reset, poolInOrder_reset⟩

end Sys2Proof.Machine
end

section
/-! PROOFS. The damage score of every record (R52, R53): what each operation leaves of the records' scores, and the invariant
that follows. An operation keeps a score because it leaves the counts and the score as they are, because it changes the
counts through `Record.count`, or because it clears or sets up the record. -/

namespace Sys2Proof.Machine

/-! ### A record whose score equals its formula -/

/-- The damage score of a record equals its formula (R53). -/
def Record.Scored (r : Record) : Prop := r.damage = damageScore r.counts

theorem damageKept_iff (s : State) : DamageKept s ↔ ∀ i, (s.record i).Scored := Iff.rfl

theorem Record.scored_cleared : Record.cleared.Scored := rfl

theorem Record.scored_setUp (c : Port) (key : Key) (n : Nat) (twin : Bool) : (Record.setUp c key n twin).Scored := rfl

theorem Record.scored_count (f : Counts → Counts) (r : Record) : (r.count f).Scored := rfl

theorem Record.scored_withPages (l : PageList) (p : List Nat) (r : Record) : (r.withPages l p).Scored ↔ r.Scored := by
  cases l <;> exact Iff.rfl

/-- Every record whose score equals its formula before an operation has it so after it. -/
def ScoresKept (s t : State) : Prop := ∀ i, (s.record i).Scored → (t.record i).Scored

theorem ScoresKept.refl (s : State) : ScoresKept s s := fun _ => id

theorem ScoresKept.trans {s t u : State} (h : ScoresKept s t) (k : ScoresKept t u) : ScoresKept s u :=
  fun i scored => k i (h i scored)

theorem ScoresKept.after {s t u : State} (k : ScoresKept t u) (h : ScoresKept s t) : ScoresKept s u := h.trans k

theorem ScoresKept.of_records {s t : State} (h : t.pool.records = s.pool.records) : ScoresKept s t := fun i => by
  rw [show t.record i = s.record i from congrArg (·.get i) h]
  exact id

theorem ScoresKept.ite {s t u : State} {p : Prop} [Decidable p] (h : ScoresKept s t) (k : ScoresKept s u) :
    ScoresKept s (if p then t else u) := by
  split
  · exact h
  · exact k

theorem ScoresKept.foldl {α : Type} {f : State → α → State} (h : ∀ s a, ScoresKept s (f s a)) (l : List α) (s : State) :
    ScoresKept s (l.foldl f s) := by
  induction l generalizing s with
  | nil => exact ScoresKept.refl s
  | cons a l ih => exact (h s a).trans (ih _)

variable (s : State)

/-! ### Records -/

/-- An update of one record keeps the scores when it keeps that record's. -/
theorem State.onRec_scores (i : RecIx) (f : Record → Record) (h : (s.record i).Scored → (f (s.record i)).Scored) :
    ScoresKept s (s.onRec i f) := fun j => by
  by_cases e : j = i
  · subst e
    rw [State.record_onRec_same]
    exact h
  · rw [State.record_onRec_other _ _ e]
    exact id

theorem State.onRec_count_scores (i : RecIx) (f : Counts → Counts) : ScoresKept s (s.onRec i (Record.count f)) :=
  s.onRec_scores i _ fun _ => Record.scored_count f _

theorem State.freeRecord_scores (i : RecIx) : ScoresKept s (s.freeRecord i) := fun j scored => by
  rw [State.freeRecord_record]
  split
  · exact Record.scored_cleared
  · exact scored

theorem State.tickTimers_scores : ScoresKept s s.tickTimers := fun i => by
  rw [State.tickTimers_record]
  exact id

theorem State.assertReset_scores : ScoresKept s s.assertReset := fun i _ => by
  rw [State.assertReset_record]
  exact Record.scored_cleared

/-! ### Channels and messages -/

theorem State.setChan_scores (c : Port) (x : Channel) : ScoresKept s (s.setChan c x) := .of_records rfl
theorem State.onPort_scores (c : Port) (f : FeedPort → FeedPort) : ScoresKept s (s.onPort c f) := .of_records rfl
theorem State.onSync_scores (c : Port) (f : Synchroniser → Synchroniser) : ScoresKept s (s.onSync c f) := .of_records rfl
theorem State.onTake_scores (c : Port) (f : TakeController → TakeController) : ScoresKept s (s.onTake c f) :=
  .of_records rfl
theorem State.onSel_scores (c : Port) (f : Selector → Selector) : ScoresKept s (s.onSel c f) := .of_records rfl

theorem State.retally_scores (c : Port) : ScoresKept s (s.retally c) := .ite (.refl s) (s.onPort_scores c _)

theorem State.transmit_scores (m : Message) : ScoresKept s (s.transmit m) := .of_records rfl
theorem State.notice_scores (k : Cause) (r c : Byte) (n : HouseCount) : ScoresKept s (s.notice k r c n) :=
  .of_records (by simp)
theorem State.engineNotice_scores (k : Cause) (r : Byte) : ScoresKept s (s.engineNotice k r) := s.notice_scores _ _ _ _
theorem State.channelNotice_scores (k : Cause) (r : Byte) (c : Port) : ScoresKept s (s.channelNotice k r c) :=
  s.notice_scores _ _ _ _

/-- What leaves the records as they are may stand before an operation. -/
theorem ScoresKept.of_same {s t u : State} (k : ScoresKept t u) (h : t.pool.records = s.pool.records) : ScoresKept s u :=
  (ScoresKept.of_records h).trans k

/-! ### Staging pool -/

theorem State.evict_scores (i : RecIx) : ScoresKept s (s.evict i) :=
  (State.channelNotice_scores _ _ _ _).after ((s.freeRecord_scores i).trans (.of_records rfl))

theorem State.lowMarkTest_scores (fuel : Nat) : ScoresKept s (s.lowMarkTest fuel) := by
  induction fuel generalizing s with
  | zero => exact .refl s
  | succ n ih =>
    unfold State.lowMarkTest
    split
    · split
      · exact (s.evict_scores _).trans (ih _)
      · exact .refl s
    · exact .refl s

theorem State.takePage_scores (i : RecIx) (l : PageList) (t : State) (h : s.takePage i l = some t) : ScoresKept s t := by
  unfold State.takePage at h
  split at h
  · cases h
  · cases h
    exact ((State.lowMarkTest_scores _ _).after (State.onRec_scores _ i _ (Record.scored_withPages l _ _).2)).of_same rfl

theorem State.takePages_scores (i : RecIx) (l : PageList) (n : Nat) : ScoresKept s (s.takePages i l n).1 := by
  induction n generalizing s with
  | zero => exact .refl s
  | succ n ih =>
    unfold State.takePages
    split
    · exact .refl s
    · rename_i t h
      exact (s.takePage_scores i l t h).trans (ih t)

theorem State.giveBack_scores (i : RecIx) (l : PageList) (n : Nat) : ScoresKept s (s.giveBack i l n) :=
  (State.onRec_scores _ i _ (Record.scored_withPages l _ _).2).of_same rfl

theorem State.requestPages_scores (i : RecIx) (l : PageList) (n : Nat) : ScoresKept s (s.requestPages i l n).1 := by
  have taken := s.takePages_scores i l n
  unfold State.requestPages
  dsimp only
  split
  · exact .refl s
  · split
    · rename_i t e; rw [e] at taken; exact taken
    · rename_i t e; rw [e] at taken; exact taken.trans (t.giveBack_scores _ _ _)

theorem State.scores_of_requestPages {i : RecIx} {l : PageList} {n : Nat} {t : State} {found : Bool}
    (h : s.requestPages i l n = (t, found)) : ScoresKept s t := by
  have kept := s.requestPages_scores i l n
  rwa [h] at kept

/-! ### Store link -/

theorem State.issueUpTo_scores (fuel : Nat) : ScoresKept s (s.issueUpTo fuel) := by
  induction fuel generalizing s with
  | zero => exact .refl s
  | succ n ih =>
    unfold State.issueUpTo
    split
    · split
      · exact (ih _).after ((State.onRec_scores _ _ _ id).of_same rfl)
      · exact .refl s
    · exact .refl s

theorem State.issue_scores : ScoresKept s s.issue := .ite (.refl s) (s.issueUpTo_scores 16)

theorem State.joinWriteQueue_scores (i : RecIx) : ScoresKept s (s.joinWriteQueue i) :=
  (State.issue_scores _).after ((s.onRec_scores i (fun r => { r with st := .queued }) id).trans (.of_records rfl))

theorem State.leaveWriteQueue_scores (i : RecIx) : ScoresKept s (s.leaveWriteQueue i) := .of_records rfl

theorem State.settleFailed_scores (i : RecIx) : ScoresKept s (s.settleFailed i) :=
  .ite ((State.leaveWriteQueue_scores _ i).after ((State.freeRecord_scores _ i).of_same rfl)) (.refl s)

theorem State.haltStore_scores (r : Byte) : ScoresKept s (s.haltStore r) :=
  .ite ((State.engineNotice_scores _ _ _).of_same rfl) (.refl s)

theorem State.ackOk_scores (i : RecIx) (ref : PageRef) : ScoresKept s (s.ackOk i ref) :=
  .ite (s.settleFailed_scores i) <|
    .ite ((State.leaveWriteQueue_scores _ i).after ((State.freeRecord_scores _ i).of_same rfl)) (s.onRec_scores i _ id)

theorem State.ackFull_scores (i : RecIx) (ref : PageRef) : ScoresKept s (s.ackFull i ref) :=
  (State.haltStore_scores _ _).after (.ite (s.settleFailed_scores i) (s.onRec_scores i _ id))

theorem State.ackFault_scores (i : RecIx) : ScoresKept s (s.ackFault i) :=
  .ite (s.settleFailed_scores i) ((s.onRec_scores i Record.fail id).trans (State.settleFailed_scores _ i))

theorem State.ackTag_scores (k : TagIx) (status : Byte) : ScoresKept s (s.ackTag k status) := by
  unfold State.ackTag
  split
  · rename_i r _ _
    have judged : ScoresKept (s.setTag k .free) ((s.setTag k .free).ackStatus status r.record r.ref) :=
      .ite (State.ackOk_scores _ _ _) (.ite (State.ackFull_scores _ _ _) (State.ackFault_scores _ _))
    exact (State.issue_scores _).after (judged.of_same rfl)
  · exact (State.issue_scores _).of_same rfl
  · exact .of_records rfl

theorem State.acknowledge_scores (tag status : Byte) : ScoresKept s (s.acknowledge tag status) := by
  have stray : ScoresKept s s.countStray := .of_records rfl
  unfold State.acknowledge
  split
  · split
    · exact .ite stray (s.ackTag_scores _ _)
    · exact stray
  · exact .refl s

theorem State.storeExpiry_scores (k : TagIx) : ScoresKept s (s.storeExpiry k) := by
  unfold State.storeExpiry
  split
  · exact .ite ((State.ackFault_scores _ _).of_same rfl) (.refl s)
  · exact .refl s
  · exact .refl s

theorem State.clearExpiry_scores : ScoresKept s s.clearExpiry := .ite (.of_records rfl) (.refl s)

theorem State.haltAssert_scores : ScoresKept s s.haltAssert :=
  .ite ((State.haltStore_scores _ _).of_same rfl) (.of_records rfl)

theorem State.clearedReceived_scores : ScoresKept s s.clearedReceived :=
  .ite (.ite ((State.issue_scores _).of_same rfl) (.of_records rfl)) (.refl s)

/-! ### Segments -/

theorem State.countOpen_scores (c : Port) (f : Counts → Counts) : ScoresKept s (s.countOpen c f) := by
  unfold State.countOpen
  split
  · exact s.onRec_count_scores _ f
  · exact .refl s

theorem State.closeComplete_scores (i : RecIx) : ScoresKept s (s.closeComplete i) := by
  have reported (m : Message) : ScoresKept s (State.transmit m (s.onRec i fun r => { r with drainTimer := none })) :=
    (s.onRec_scores i _ id).trans (State.transmit_scores _ m)
  exact .ite ((State.freeRecord_scores _ i).after (reported _)) <|
    .ite ((State.onRec_scores _ i _ id).after (reported _)) ((State.joinWriteQueue_scores _ i).after (reported _))

theorem State.closeRecord_scores (torn : Bool) (i : RecIx) : ScoresKept s (s.closeRecord torn i) := by
  have closing : ScoresKept s (s.onRec i fun r =>
      { r with st := .closing, short := decide (r.counts.placements < r.segLen), torn := torn }) :=
    s.onRec_scores i _ id
  exact .ite (closing.trans (State.closeComplete_scores _ i)) (closing.trans (State.onRec_scores _ i _ id))

theorem State.closeOpen_scores (torn : Bool) (c : Port) : ScoresKept s (s.closeOpen torn c) := by
  unfold State.closeOpen
  split
  · exact s.closeRecord_scores torn _
  · exact .refl s

theorem State.overrun_scores (r : Byte) (c : Port) : ScoresKept s (s.overrun r c) :=
  (State.channelNotice_scores _ _ _ _).of_same rfl

theorem State.openSegment_scores (c : Port) (key : Key) : ScoresKept s (s.openSegment c key) := by
  have setUp (t : State) (i : RecIx) (n : Nat) (twin : Bool) :
      ScoresKept t (t.onRec i fun _ => Record.setUp c key n twin) :=
    t.onRec_scores i _ fun _ => Record.scored_setUp c key n twin
  unfold State.openSegment
  dsimp only
  split
  · exact s.overrun_scores _ c
  · split
    · exact setUp s _ _ _
    · split
      · exact (s.evict_scores _).trans (setUp _ _ _ _)
      · exact s.overrun_scores _ c

/-! ### Browse Unit -/

theorem State.startCoder_scores : ScoresKept s s.startCoder := by
  unfold State.startCoder
  split
  · exact .of_records rfl
  · exact .refl s

theorem State.appendEntry_scores (i : RecIx) (e : BrowseEntry) : ScoresKept s (s.appendEntry i e) :=
  s.onRec_scores i _ id

theorem State.selectPresent_scores (c : Port) (i : RecIx) (o n : Nat) : ScoresKept s (s.selectPresent c i o n) := by
  have pending := (s.appendEntry_scores i .reserved).trans
    (State.onRec_scores _ i (fun r => { r with pendingJobs := r.pendingJobs + 1 }) id)
  exact .ite ((State.startCoder_scores _).after (pending.trans (.of_records rfl)))
    ((s.appendEntry_scores i .skip).trans (State.onSel_scores _ c _))

theorem State.offer_scores (c : Port) (i : RecIx) (f : Option (Nat × Nat)) : ScoresKept s (s.offer c i f) := by
  unfold State.offer
  dsimp only
  split
  · split
    · exact (State.selectPresent_scores _ _ _ _ _).of_same rfl
    · exact (State.appendEntry_scores _ _ _).of_same rfl
  · exact .of_records rfl

theorem State.settleSkip_scores (j : Job) : ScoresKept s (s.settleSkip j) :=
  (s.onRec_scores j.record (fun r => { r with entries := r.entries.set j.entry .skip }) id).trans (.of_records rfl)

theorem State.settleKeep_scores (j : Job) (coded : List Byte) : ScoresKept s (s.settleKeep j coded) := by
  rw [State.settleKeep.eq_1]
  split
  · rename_i t e
    have written := (s.scores_of_requestPages e).trans (ScoresKept.of_records
      (t := { t with mem := t.mem.writeStream (t.record j.record).brwPages (s.record j.record).brwBytes coded }) rfl)
    have counted := written.trans
      (State.onRec_scores _ j.record (fun r => { r with brwBytes := r.brwBytes + coded.length }) id)
    have entered := counted.trans (State.onRec_scores _ j.record
      (fun r => { r with entries := r.entries.set j.entry (.size coded.length) }) id)
    exact entered.trans (State.onSel_scores _ j.channel _)
  · rename_i t e
    exact (s.scores_of_requestPages e).trans (t.settleSkip_scores j)

theorem State.nextJob_scores : ScoresKept s s.nextJob := (State.startCoder_scores _).of_same rfl

theorem State.complete_scores (coded : List Byte) : ScoresKept s (s.complete coded) := by
  unfold State.complete
  split
  · rename_i j _ _ _
    have settled : ScoresKept s (s.settleJob j coded) := .ite (s.settleSkip_scores j) (s.settleKeep_scores j coded)
    have counted := settled.trans
      (State.onRec_scores _ j.record (fun r => { r with pendingJobs := r.pendingJobs - 1 }) id)
    exact .ite s.nextJob_scores
      ((counted.trans (State.nextJob_scores _)).trans (.ite (State.closeComplete_scores _ _) (.refl _)))
  · exact .refl s

theorem State.drainExpiry_scores (i : RecIx) : ScoresKept s (s.drainExpiry i) := by
  have withdrawn : ScoresKept s (s.withdraw i) := .of_records rfl
  exact (State.closeComplete_scores _ i).after
    ((State.onSel_scores _ _ _).after (withdrawn.trans (State.onRec_scores _ i _ id)))

theorem State.takeDrain_scores (i : RecIx) : ScoresKept s (s.takeDrain i) := .ite (s.drainExpiry_scores i) (.refl s)

/-! ### Copy arbitration -/

theorem State.windowExpiry_scores (i : RecIx) : ScoresKept s (s.windowExpiry i) := by
  have decided := s.onRec_scores i
    (fun r => { r with windowTimer := none, decisionTime := some s.ref.count, peers := [] }) id
  exact .ite (.ite (decided.trans (State.joinWriteQueue_scores _ i)) (decided.trans (State.onRec_scores _ i _ id)))
    (.refl s)

theorem State.takeOver_scores (i : RecIx) : ScoresKept s (s.takeOver i) := by
  have announced := (s.onRec_scores i (fun r => { r with commitTimer := none, ahead := [] }) id).trans
    (State.transmit_scores _ (.takeover (s.record i).key))
  unfold State.takeOver
  dsimp only
  rw [State.record_onRec_same]
  exact ((announced.trans (State.onRec_scores _ i _ id)).trans (State.joinWriteQueue_scores _ i)).trans (.of_records rfl)

theorem State.commitExpiry_scores (i : RecIx) : ScoresKept s (s.commitExpiry i) := .ite (s.takeOver_scores i) (.refl s)

theorem State.hearReport_scores (m : Heard) : ScoresKept s (s.hearReport m) := by
  unfold State.hearReport State.peerReport
  dsimp only
  split
  · split
    · exact .of_records rfl
    · exact .ite (.refl s) (.ite (s.onRec_scores _ _ id) (.of_records rfl))
  · exact .refl s

theorem State.storedFor_scores (key : Key) : ScoresKept s (s.storedFor key) := by
  unfold State.storedFor
  split
  · exact .refl s
  · split
    · exact s.onRec_scores _ _ id
    · exact s.onRec_scores _ _ id
    · exact s.freeRecord_scores _
    · exact s.freeRecord_scores _
    · exact (s.leaveWriteQueue_scores _).trans (State.freeRecord_scores _ _)
    · exact .refl s
    · exact .refl s
    · exact .refl s

theorem State.takeStored_scores (m : HeardStored) : ScoresKept s (s.takeStored m) := by
  have heard : ScoresKept s (s.hearStored m.heard) := by
    unfold State.hearStored
    split
    · exact s.storedFor_scores _
    · exact .refl s
  exact .ite (heard.trans (State.issue_scores _)) heard

theorem State.unstoredFor_scores (key : Key) (station : Station) : ScoresKept s (s.unstoredFor key station) := by
  unfold State.unstoredFor
  split
  · exact .refl s
  · rename_i i _
    have shortened := s.onRec_scores i (fun r => { r with ahead := r.ahead.filter (· != station) }) id
    exact .ite (shortened.trans (State.takeOver_scores _ i)) (shortened.trans (State.onRec_scores _ i _ id))

theorem State.hearUnstored_scores (m : Heard) : ScoresKept s (s.hearUnstored m) := by
  unfold State.hearUnstored
  split
  · exact s.unstoredFor_scores _ _
  · exact .refl s

theorem State.hearTakeover_scores (m : Heard) : ScoresKept s (s.hearTakeover m) := by
  unfold State.hearTakeover State.takeoverFor
  split
  · split
    · exact .refl s
    · exact s.onRec_scores _ _ id
  · exact .refl s

/-! ### Placement -/

theorem State.frameArrival_scores (c : Port) (f : FrameRecord) : ScoresKept s (s.frameArrival c f) :=
  (State.countOpen_scores _ c _).of_same rfl

theorem State.syncLoss_scores (c : Port) : ScoresKept s (s.syncLoss c) :=
  (s.countOpen_scores c _).trans (.of_records rfl)

theorem State.pack_scores (i : RecIx) (f : FrameRecord) : ScoresKept s (s.pack i f).1 := by
  rw [State.pack.eq_1]
  split
  · rename_i t e
    exact ((s.scores_of_requestPages e).trans (.of_records rfl)).trans (State.onRec_scores
      { t with mem := t.mem.writeStream (t.record i).essPages (s.record i).essBytes f.payload } i _ id)
  · rename_i t e
    exact s.scores_of_requestPages e

theorem State.enterPlacement_scores (c : Port) (i : RecIx) (k : PlacementKind) (key : Bool) (f : Option (Nat × Nat)) :
    ScoresKept s (s.enterPlacement c i k key f) :=
  (State.offer_scores _ c i f).after <|
    s.onRec_scores i (fun r => ({ r with map := r.map ++ [{ kind := k, key := key }] } : Record).count k.count)
      fun _ => Record.scored_count k.count _

theorem State.appendPlacement_scores (c : Port) (i : RecIx) (x : Placement) : ScoresKept s (s.appendPlacement c i x) := by
  cases x with
  | present f =>
    have packed (t : State) (stored : Bool) (e : s.pack i f = (t, stored)) : ScoresKept s t := by
      have kept := s.pack_scores i f
      rwa [e] at kept
    rw [State.appendPlacement.eq_1]
    split
    · rename_i t e
      exact (packed t _ e).trans (t.enterPlacement_scores _ _ _ _ _)
    · rename_i t e
      exact (packed t _ e).trans (t.enterPlacement_scores _ _ _ _ _)
  | repeated => exact s.enterPlacement_scores _ _ _ _ _
  | fill => exact s.enterPlacement_scores _ _ _ _ _

theorem State.releasePlacement_scores (c : Port) : ScoresKept s (s.releasePlacement c) := by
  unfold State.releasePlacement
  dsimp only
  split
  · exact s.onSync_scores c _
  · exact ((s.onSync_scores c _).trans (State.appendPlacement_scores _ _ _ _)).trans (State.onRec_count_scores _ _ _)

/-! ### Takes -/

/-- The end of a take: the take controller, its tally and the notice. -/
theorem State.endOfTake_scores (f : TakeController → TakeController) (reason : EndReason) (c : Port) :
    ScoresKept s (((s.onTake c f).retally c).takeEnd reason c) :=
  (State.channelNotice_scores _ _ _ _).after ((State.retally_scores _ c).of_same rfl)

theorem State.holdOverExpire_scores (c : Port) : ScoresKept s (s.holdOverExpire c) :=
  (s.closeOpen_scores true c).trans (State.endOfTake_scores _ _ .loss c)

theorem State.boundaryClose_scores (c : Port) : ScoresKept s (s.boundaryClose c) :=
  (s.closeOpen_scores false c).trans (.ite (State.endOfTake_scores _ _ .stop c) (.refl _))

theorem State.announceClip_scores (c : Port) : ScoresKept s (s.announceClip c) :=
  (State.onSel_scores _ c _).after ((s.channelNotice_scores _ _ c).trans (State.channelNotice_scores _ _ _ c))

theorem State.takeStart_scores (c : Port) (q : Cue) : ScoresKept s (s.takeStart c q) :=
  (State.announceClip_scores _ c).after ((State.retally_scores _ c).of_same rfl)

theorem State.settleCue_scores (c : Port) : ScoresKept s (s.settleCue c) := by
  have replaced (q : Cue) : ScoresKept s (s.replaceCue c q) :=
    .ite ((State.channelNotice_scores _ _ _ c).of_same rfl) ((State.announceClip_scores _ c).of_same rfl)
  unfold State.settleCue
  dsimp only
  split
  · split
    · exact replaced _
    · exact .ite (.refl s) (s.endOfTake_scores _ .normal c)
  · exact .refl s

theorem State.openSpan_scores (c : Port) : ScoresKept s (s.openSpan c) := by
  unfold State.openSpan
  dsimp only
  split
  · exact .ite (s.onTake_scores c _) ((State.openSegment_scores _ c _).of_same rfl)
  · exact (State.openSegment_scores _ c _).of_same rfl

theorem State.boundary_scores (c : Port) : ScoresKept s (s.boundary c) := by
  have spanned (t : State) (h : ScoresKept s t) :
      ScoresKept s (if (t.chan c).take.st = .recording then t.openSpan c else t) :=
    h.trans (.ite (t.openSpan_scores c) (.refl t))
  have closed := s.boundaryClose_scores c
  unfold State.boundary
  dsimp only
  apply spanned
  split
  · exact closed.trans (State.takeStart_scores _ c _)
  · exact closed.trans (State.settleCue_scores _ c)
  · exact closed

theorem State.takeTick_scores (preset : Bool) (c : Port) : ScoresKept s (s.takeTick preset c) := by
  have placed (t : State) : ScoresKept t (t.boundaryAndPlacement preset c) :=
    (State.releasePlacement_scores _ c).after (.ite (t.boundary_scores c) (.refl t))
  have counted := s.onTake_scores c fun t => { t with holdOver := t.holdOver + 1 }
  exact .ite (.refl s) <| .ite
    (.ite ((counted.trans (State.holdOverExpire_scores _ c)).trans (placed _)) (counted.trans (placed _))) (placed s)

/-! ### Feed conditions and lane bytes -/

theorem State.declareLost_scores (c : Port) (reason : LossReason) : ScoresKept s (s.declareLost c reason) := by
  have lost : ScoresKept s ((s.onPort c fun p => { p with feed := .lost reason }).retally c) :=
    (State.retally_scores _ c).of_same rfl
  exact .ite ((State.syncLoss_scores _ c).after
    ((State.channelNotice_scores _ _ _ c).after (lost.trans (.of_records rfl)))) (s.onPort_scores c _)

theorem State.feedBack_scores (c : Port) : ScoresKept s (s.feedBack c) := by
  have live : ScoresKept s ((s.onPort c fun p => { p with feed := .live, firstSinceArm := false }).retally c) :=
    (State.retally_scores _ c).of_same rfl
  exact (State.onTake_scores _ c _).after (.ite live (live.trans (State.channelNotice_scores _ _ _ c)))

theorem State.samplePresence_scores (level : Bool) (c : Port) : ScoresKept s (s.samplePresence level c) := by
  have fall (t : State) : ScoresKept t (t.presenceFall c) := .ite ((State.declareLost_scores _ c _).of_same rfl) (.refl t)
  exact .ite (s.onPort_scores c _) (.ite (s.onPort_scores c _) (.ite (s.onPort_scores c _) ((fall _).of_same rfl)))

theorem State.feedFault_scores (c : Port) : ScoresKept s (s.feedFault c) := by
  have told := (s.setChan_scores c ((s.chan c).shut true)).trans (State.channelNotice_scores _ .feedFault 0x00#8 c)
  have idle (t : State) : ScoresKept t ((t.onTake c TakeController.toIdle).retally c) :=
    (State.retally_scores _ c).of_same rfl
  by_cases taking : (s.chan c).take.st = .recording ∨ (s.chan c).take.st = .ending
  · rw [s.feedFault_of_taking c taking]
    exact ((told.trans (State.closeOpen_scores _ true c)).trans (State.channelNotice_scores _ _ _ c)).trans (idle _)
  · rw [s.feedFault_of_not_taking c taking]
    exact told.trans (idle _)

theorem State.corruptOutcome_scores (c : Port) : ScoresKept s (s.corruptOutcome c) :=
  .ite ((State.feedFault_scores _ c).of_same rfl) (s.onPort_scores c _)

theorem State.acceptFrame_scores (c : Port) (h : Header) (payload : List Byte) :
    ScoresKept s (s.acceptFrame c h payload) := by
  have live (t : State) : ScoresKept t (if (t.chan c).port.feed = .live then t else t.feedBack c) :=
    .ite (.refl t) (t.feedBack_scores c)
  have arrived (r : FrameRecord) : ScoresKept s _ :=
    ((s.onPort_scores c fun p => { p with accepted := satInc p.accepted, consecBad := 0, waitTimer := some p.fwt }).trans
      (live _)).trans (State.frameArrival_scores _ c r)
  exact .ite ((arrived _).trans (State.declareLost_scores _ c _)) (arrived _)

theorem State.judgeHeader_scores (c : Port) (got : List Byte) : ScoresKept s (s.judgeHeader c got) :=
  .ite (s.onPort_scores c _) ((State.corruptOutcome_scores _ c).of_same rfl)

theorem State.judgeFrame_scores (c : Port) (h : Header) (got : List Byte) : ScoresKept s (s.judgeFrame c h got) := by
  have good (t : State) (payload : List Byte) : ScoresKept t (t.goodFrame c h payload) :=
    .ite (t.acceptFrame_scores c h payload) (t.onPort_scores c _)
  exact .ite ((good _ _).of_same rfl) ((State.corruptOutcome_scores _ c).of_same rfl)

theorem State.laneByte_scores (c : Port) (b : Byte) : ScoresKept s (s.laneByte c b) := by
  unfold State.laneByte
  split
  · exact .refl s
  · split
    · exact .ite (s.onPort_scores c _) (s.onPort_scores c _)
    · exact .ite (s.judgeHeader_scores c _) (s.onPort_scores c _)
    · exact .ite (s.judgeFrame_scores c _ _) (s.onPort_scores c _)

theorem State.hearLane_scores (c : Port) (x : LaneBytes) : ScoresKept s (s.hearLane c x) :=
  .ite ((ScoresKept.foldl (fun t b => t.laneByte_scores c b) _ _).of_same rfl) (.refl s)

theorem State.waitingExpiry_scores (c : Port) : ScoresKept s (s.waitingExpiry c) :=
  .ite (.ite ((State.declareLost_scores _ c _).of_same rfl) (s.onPort_scores c _)) (.refl s)

theorem State.takeHoldOver_scores (c : Port) : ScoresKept s (s.takeHoldOver c) :=
  .ite (s.holdOverExpire_scores c) (.refl s)

/-! ### House ticks -/

theorem State.tickPart_scores (tick : TickInput) (preset : Bool) (part : TickPart) :
    ScoresKept s (s.tickPart tick preset part) := by
  cases part with
  | presence c => exact s.samplePresence_scores _ c
  | placement c => exact s.takeTick_scores preset c
  | tally c => exact s.onPort_scores c _
  | waiting c => exact s.waitingExpiry_scores c
  | lane c b => exact s.hearLane_scores c _
  | drain i => exact s.takeDrain_scores i
  | window i => exact s.windowExpiry_scores i
  | commit i => exact s.commitExpiry_scores i
  | store k => exact s.storeExpiry_scores k
  | clear => exact s.clearExpiry_scores

/-- A tick keeps the scores, whatever the Reference Unit has done before it. -/
theorem State.houseTick_withRef_scores (tick : TickInput) (r : RefUnit) :
    ScoresKept s (State.houseTick tick { s with ref := r }) :=
  (ScoresKept.foldl (fun t part => t.tickPart_scores tick _ part) _ _).after
    ((State.tickTimers_scores _).of_same rfl)

theorem State.pulse_scores (time : Nat) (tick : TickInput) : ScoresKept s (s.pulse time tick) := by
  unfold State.pulse State.realPulse
  dsimp only
  split
  · split
    · exact s.houseTick_withRef_scores tick _
    · exact s.houseTick_withRef_scores tick _
    · exact s.houseTick_withRef_scores tick _
    · exact .ite ((State.engineNotice_scores _ _ _).of_same rfl)
        ((s.houseTick_withRef_scores tick _).trans (State.engineNotice_scores _ _ _))
  · exact .refl s

theorem State.lossOfReference_scores (time : Nat) (tick : TickInput) : ScoresKept s (s.lossOfReference time tick) := by
  unfold State.lossOfReference
  dsimp only
  split
  · exact (s.houseTick_withRef_scores tick _).trans (State.engineNotice_scores _ _ _)
  · exact .refl s

theorem State.flywheelStep_scores (time : Nat) (tick : TickInput) : ScoresKept s (s.flywheelStep time tick) := by
  unfold State.flywheelStep
  split
  · exact s.houseTick_withRef_scores tick _
  · exact .refl s

/-! ### Cue-line commands -/

theorem State.arm_scores (payload : List Byte) : ScoresKept s (s.arm payload).state := by
  unfold State.arm
  dsimp only
  split
  · exact .refl s
  · split
    · exact .refl s
    · split
      · exact .refl s
      · split
        · exact .refl s
        · exact (State.retally_scores _ _).of_same rfl

theorem State.disarm_scores (c : Port) : ScoresKept s (s.disarm c).state := by
  unfold State.disarm
  split
  · exact (State.retally_scores _ c).of_same rfl
  · exact .refl s
  · exact .refl s
  · exact .refl s

theorem State.cueCommand_scores (q : Cue) (c : Port) : ScoresKept s (s.cueCommand q c).state := by
  unfold State.cueCommand
  dsimp only
  split
  · exact .refl s
  · split
    · exact .refl s
    · split
      · exact .refl s
      · split
        · exact .refl s
        · exact s.onTake_scores c _

theorem State.stopCommand_scores (c : Port) : ScoresKept s (s.stopCommand c).state := by
  unfold State.stopCommand
  dsimp only
  split
  · exact (State.retally_scores _ c).of_same rfl
  · split
    · exact s.onTake_scores c _
    · exact .refl s
  · exact .refl s
  · exact .refl s

theorem State.cutCommand_scores (c : Port) : ScoresKept s (s.cutCommand c).state := by
  unfold State.cutCommand
  dsimp only
  split
  · exact (s.closeOpen_scores false c).trans (State.endOfTake_scores _ _ .cut c)
  · exact .refl s

theorem State.resetChannelCommand_scores (c : Port) : ScoresKept s (s.resetChannelCommand c).state := by
  have reset (t : State) (i : RecIx) : ScoresKept t (t.resetRecord c i) :=
    .ite ((State.freeRecord_scores _ i).of_same rfl) (.refl t)
  have closed : ScoresKept s (s.closeChannel c) := .of_records rfl
  unfold State.resetChannelCommand
  dsimp only [State.done]
  exact (State.retally_scores _ c).after ((ScoresKept.foldl reset _ _).after
    ((closed.trans (State.onPort_scores _ c _)).trans (State.onTake_scores _ c _)))

theorem State.resumeCommand_scores : ScoresKept s s.resumeCommand.state := by
  unfold State.resumeCommand
  split
  · exact .refl s
  · split
    · exact .refl s
    · split
      · exact .refl s
      · exact (State.issue_scores _).of_same rfl

theorem State.resetStoreCommand_scores : ScoresKept s s.resetStoreCommand.state := by
  have givenUp (t : State) (i : RecIx) : ScoresKept t (t.giveUp i) :=
    .ite ((State.leaveWriteQueue_scores _ i).after ((State.freeRecord_scores _ i).of_same rfl)) (.refl t)
  have tagsFreed : ScoresKept s { s with link := { s.link with tags := Vector.replicate 16 .free } } := .of_records rfl
  unfold State.resetStoreCommand
  dsimp only
  split
  · exact .refl s
  · exact (tagsFreed.trans (ScoresKept.foldl givenUp _ _)).trans (.of_records rfl)

theorem State.command_scores (kind : Byte) (need : Nat) (viaFeed viaAll : Bool) (channel : Byte) (act : State → Taken)
    (m : Heard) (effect : ScoresKept s (act s).state) : ScoresKept s (s.command kind need viaFeed viaAll channel act m) := by
  unfold State.command
  split
  · split
    · exact .ite (s.transmit_scores _) (effect.trans (State.transmit_scores _ _))
    · exact .ite effect (.refl s)
    · exact .ite effect (.refl s)
    · exact .refl s
  · exact .refl s

theorem State.onChannel_scores (c : Option Port) (act : Port → State → Taken)
    (effect : ∀ c, ScoresKept s (act c s).state) : ScoresKept s (s.onChannel c act).state := by
  cases c with
  | none => exact .refl s
  | some c => exact effect c

theorem State.hearArm_scores (m : Heard) : ScoresKept s (s.hearArm m) :=
  s.command_scores _ _ _ _ _ _ m (s.arm_scores m.payload)

theorem State.hearDisarm_scores (m : Heard) : ScoresKept s (s.hearDisarm m) :=
  s.command_scores _ _ _ _ _ _ m (s.onChannel_scores _ _ s.disarm_scores)

theorem State.hearCue_scores (m : Heard) : ScoresKept s (s.hearCue m) :=
  s.command_scores _ _ _ _ _ _ m (s.onChannel_scores _ _ (s.cueCommand_scores _))

theorem State.hearStop_scores (m : Heard) : ScoresKept s (s.hearStop m) :=
  s.command_scores _ _ _ _ _ _ m (s.onChannel_scores _ _ s.stopCommand_scores)

theorem State.hearCut_scores (m : Heard) : ScoresKept s (s.hearCut m) :=
  s.command_scores _ _ _ _ _ _ m (s.onChannel_scores _ _ s.cutCommand_scores)

theorem State.hearResetChannel_scores (m : Heard) : ScoresKept s (s.hearResetChannel m) :=
  s.command_scores _ _ _ _ _ _ m (s.onChannel_scores _ _ s.resetChannelCommand_scores)

theorem State.hearPreset_scores (m : Heard) : ScoresKept s (s.hearPreset m) :=
  s.command_scores _ _ _ _ _ _ m (.of_records rfl)

theorem State.hearResumeStore_scores (m : Heard) : ScoresKept s (s.hearResumeStore m) :=
  s.command_scores _ _ _ _ _ _ m s.resumeCommand_scores

theorem State.hearResetStore_scores (m : Heard) : ScoresKept s (s.hearResetStore m) :=
  s.command_scores _ _ _ _ _ _ m s.resetStoreCommand_scores

theorem State.hearQuery_scores (m : Heard) : ScoresKept s (s.hearQuery m) := by
  have engine (d : Station) (clear : Bool) : ScoresKept s (s.queryEngine d clear) :=
    (State.transmit_scores _ _).after ((State.transmit_scores _ _).after (.ite (.of_records rfl) (.of_records rfl)))
  have channel (d : Station) (clear : Bool) (c : Port) : ScoresKept s (s.queryChannel d clear c) :=
    (State.transmit_scores _ _).after (.ite (s.setChan_scores c _) (.refl s))
  have refused (d : Station) (k : ReplyCode) (a : Bool) (c b : Byte) : ScoresKept s (s.reply d k a c b) :=
    s.transmit_scores _
  unfold State.hearQuery
  dsimp only
  split
  · split
    · split
      · exact refused _ _ _ _ _
      · split
        · exact engine _ _
        · split
          · exact channel _ _ _
          · exact refused _ _ _ _ _
    · exact .refl s
  · exact .refl s

theorem State.hearUnknown_scores (kind : Byte) (m : Heard) : ScoresKept s (s.hearUnknown kind m) := by
  unfold State.hearUnknown
  split
  · split
    · exact s.transmit_scores _
    · exact .refl s
  · exact .refl s

/-! ### The cue line -/

/-- A message that leaves the transmit queue touches no record. -/
theorem State.removeSent_records : s.removeSent.pool.records = s.pool.records := by
  unfold State.removeSent
  split <;> rfl

theorem State.idleSend_scores (gap : Nat) : ScoresKept s (s.idleSend gap) := by
  unfold State.idleSend
  split
  · split
    · split
      · split
        · exact .of_records rfl
        · exact .of_records rfl
      · exact .of_records rfl
    · exact .refl s
  · exact .refl s
  · exact .refl s

theorem State.loseArbitration_scores : ScoresKept s s.loseArbitration := by
  unfold State.loseArbitration
  split
  · exact .of_records rfl
  · exact .refl s

theorem State.takeClash_scores : ScoresKept s s.takeClash := by
  unfold State.takeClash
  split
  · exact .of_records s.removeSent_records
  · exact .refl s

theorem State.takeSent_scores : ScoresKept s s.takeSent := by
  unfold State.takeSent
  split
  · exact .of_records (State.removeSent_records _)
  · exact .refl s

theorem State.takeStuck_scores (inArbitration : Bool) : ScoresKept s (s.takeStuck inArbitration) := by
  unfold State.takeStuck
  dsimp only
  split
  · split
    · exact .of_records rfl
    · exact .of_records rfl
    · split
      · exact .of_records rfl
      · exact .of_records (State.removeSent_records _)
  · exact .refl s

theorem State.takeMessage_scores (kind : Byte) (m : Heard) : ScoresKept s (s.takeMessage kind m) := by
  unfold State.takeMessage
  exact .ite (s.hearArm_scores m) <| .ite (s.hearDisarm_scores m) <| .ite (s.hearCue_scores m) <|
    .ite (s.hearStop_scores m) <| .ite (s.hearCut_scores m) <| .ite (s.hearResetChannel_scores m) <|
    .ite (s.hearPreset_scores m) <| .ite (s.hearResumeStore_scores m) <| .ite (s.hearResetStore_scores m) <|
    .ite (s.hearQuery_scores m) <| .ite (.refl s) <| .ite (.refl s) <| .ite (.refl s) <|
    .ite (s.hearReport_scores m) <| .ite (s.takeStored_scores ⟨m, false⟩) <|
    .ite (s.hearUnstored_scores m) <| .ite (s.hearTakeover_scores m) (s.hearUnknown_scores kind m)

theorem State.hearFrame_scores (bits : List Bool) : ScoresKept s (s.hearFrame bits) := by
  unfold State.hearFrame
  split
  · exact .of_records rfl
  · exact (State.takeMessage_scores _ _ _).of_same rfl

theorem State.lineFrame_scores (gap : Nat) (bits : List Bool) : ScoresKept s (s.lineFrame gap bits) := by
  unfold State.lineFrame
  dsimp only
  split
  · split
    · exact .refl s
    · exact s.hearFrame_scores _
    · split
      · exact .of_records rfl
      · exact .ite (s.hearFrame_scores _) (.of_records rfl)
  · exact .refl s

/-! ### Start-up -/

theorem State.endStartUp_scores (cfg : Configuration) (source : Source) : ScoresKept s (s.endStartUp cfg source) := by
  have started : ScoresKept s ((s.configured cfg source).notice .start source.reason engineChannel 0#32) :=
    (State.notice_scores _ _ _ _ _).of_same rfl
  exact .ite (started.trans (State.haltStore_scores _ _)) started

theorem State.configurationRead_scores (image : List Byte) : ScoresKept s (s.configurationRead image) :=
  .ite (.ite (s.endStartUp_scores _ _) (s.endStartUp_scores _ _)) (.refl s)

/-! ### What a command keeps -/

theorem exec_scores (i : Instr) : ∃ t, exec i s = .next t ∧ ScoresKept s t := by
  cases i with
  | powerOnReset => exact ⟨_, rfl, s.assertReset_scores⟩
  | configurationReadComplete image => exact ⟨_, rfl, s.configurationRead_scores image⟩
  | configurationReadTimeout => exact ⟨_, rfl, .ite (s.endStartUp_scores _ _) (.refl s)⟩
  | resetRelease straps => exact ⟨_, rfl, .ite (.of_records rfl) (.refl s)⟩
  | referencePulse time tick => exact ⟨_, rfl, s.pulse_scores time tick⟩
  | lossDeadlineExpiry time tick => exact ⟨_, rfl, s.lossOfReference_scores time tick⟩
  | flywheelTick time tick => exact ⟨_, rfl, s.flywheelStep_scores time tick⟩
  | preset m => exact ⟨_, rfl, s.hearPreset_scores m⟩
  | headerJudged port bytes => exact ⟨_, rfl, s.hearLane_scores port bytes⟩
  | frameComplete port bytes => exact ⟨_, rfl, s.hearLane_scores port bytes⟩
  | frameWaitingTimerExpiry port => exact ⟨_, rfl, s.waitingExpiry_scores port⟩
  | arm m => exact ⟨_, rfl, s.hearArm_scores m⟩
  | disarm m => exact ⟨_, rfl, s.hearDisarm_scores m⟩
  | cue m => exact ⟨_, rfl, s.hearCue_scores m⟩
  | stop m => exact ⟨_, rfl, s.hearStop_scores m⟩
  | cut m => exact ⟨_, rfl, s.hearCut_scores m⟩
  | resetChannel m => exact ⟨_, rfl, s.hearResetChannel_scores m⟩
  | holdOverExpiry port => exact ⟨_, rfl, s.takeHoldOver_scores port⟩
  | coderCompletion coded => exact ⟨_, rfl, s.complete_scores coded⟩
  | drainTimerExpiry record => exact ⟨_, rfl, s.takeDrain_scores record⟩
  | reportHeard m => exact ⟨_, rfl, s.hearReport_scores m⟩
  | reportWindowExpiry record => exact ⟨_, rfl, s.windowExpiry_scores record⟩
  | storedHeard m => exact ⟨_, rfl, s.takeStored_scores m⟩
  | unstoredHeard m => exact ⟨_, rfl, s.hearUnstored_scores m⟩
  | takeoverHeard m => exact ⟨_, rfl, s.hearTakeover_scores m⟩
  | commitTimerExpiry record => exact ⟨_, rfl, s.commitExpiry_scores record⟩
  | acknowledgement tag status => exact ⟨_, rfl, s.acknowledge_scores tag status⟩
  | storeWaitingTimerExpiry tag => exact ⟨_, rfl, s.storeExpiry_scores tag⟩
  | storeHaltAssert => exact ⟨_, rfl, s.haltAssert_scores⟩
  | storeHaltRelease => exact ⟨_, rfl, .of_records rfl⟩
  | resumeStore m => exact ⟨_, rfl, s.hearResumeStore_scores m⟩
  | resetStore m => exact ⟨_, rfl, s.hearResetStore_scores m⟩
  | cleared => exact ⟨_, rfl, s.clearedReceived_scores⟩
  | clearTimerExpiry => exact ⟨_, rfl, s.clearExpiry_scores⟩
  | storeLinkOtherType kind => exact ⟨_, rfl, .refl s⟩
  | lineIdleSend gap => exact ⟨_, rfl, s.idleSend_scores gap⟩
  | lostArbitration => exact ⟨_, rfl, s.loseArbitration_scores⟩
  | clash => exact ⟨_, rfl, s.takeClash_scores⟩
  | messageSent => exact ⟨_, rfl, s.takeSent_scores⟩
  | lineStuck inArbitration => exact ⟨_, rfl, s.takeStuck_scores inArbitration⟩
  | cueLineFrame gap bits => exact ⟨_, rfl, s.lineFrame_scores gap bits⟩
  | unknownKind kind m => exact ⟨_, rfl, s.takeMessage_scores kind m⟩
  | query m => exact ⟨_, rfl, s.hearQuery_scores m⟩
  | syncMarkerFound port bytes => exact ⟨_, rfl, s.hearLane_scores port _⟩

theorem step_scores (s t : State) (h : step s = .next t) : ScoresKept s t := by
  cases waiting : s.pending with
  | nil =>
    rw [step, waiting] at h
    cases h
    exact .refl s
  | cons c rest =>
    rw [step, waiting] at h
    obtain ⟨u, next, kept⟩ := exec_scores { s with pending := rest } c
    rw [show exec c { s with pending := rest } = .next t from h] at next
    cases next
    exact kept.of_same rfl

/-- Settles O57: a step keeps the score of each record (`step_scores`). -/
theorem damageStaysItsFormula : Obligations.DamageStaysItsFormula :=
  fun s t kept h => (damageKept_iff t).2 fun i => step_scores s t h i ((damageKept_iff s).1 kept i)

end Sys2Proof.Machine
end

section
/-! PROOFS. Frame placement: the positions of the reorder window, what an arrival and a release leave, and the close of a
segment. The facts about the operations come first; the statements follow. -/

namespace Sys2Proof.Machine

/-! ### Sequence distances (R37) -/

theorem distance_self (e : Seq) : distance e e = 0 := by simp [distance]

theorem distance_eq_zero (e s : Seq) : distance e s = 0 ↔ s = e := by
  simp only [distance]
  bv_omega

/-- Moving E on by `k` brings everything that stands at `k` or later nearer by `k`. -/
theorem distance_add {e s : Seq} {k : Nat} (h : k ≤ distance e s) :
    distance (e + BitVec.ofNat 16 k) s = distance e s - k := by
  simp only [distance] at h ⊢
  bv_omega

/-- Moving E on by `k` sends what stood before `k` to the far end. -/
theorem distance_add_of_lt {e s : Seq} {k : Nat} (h : distance e s < k) (small : k < 65536) :
    distance (e + BitVec.ofNat 16 k) s = 65536 + distance e s - k := by
  simp only [distance] at h ⊢
  bv_omega

/-- The E that an advance leaves (R40) is `d - w + 1` further on, and puts the frame at position w - 1. -/
theorem advance_eq (e s : Seq) {w : Nat} (ahead : w ≤ distance e s) :
    s - BitVec.ofNat 16 w + 1#16 = e + BitVec.ofNat 16 (distance e s - w + 1) := by
  simp only [distance] at ahead ⊢
  bv_omega

/-! ### The window in order of position (R36) -/

/-- The frames of a window stand at rising positions below its depth. -/
def WindowInOrder (e : Seq) (w : Nat) (win : List FrameRecord) : Prop :=
  (∀ x ∈ win, distance e x.seq < w) ∧ win.Pairwise fun a b => distance e a.seq < distance e b.seq

/-- A window in order holds at most as many frames as it has positions. -/
theorem WindowInOrder.length_le {e : Seq} {w : Nat} {win : List FrameRecord} (h : WindowInOrder e w win) :
    win.length ≤ w := by
  obtain ⟨below, rising⟩ := h
  have nodup : (win.map fun x => distance e x.seq).Nodup :=
    List.pairwise_map.2 (rising.imp fun lt => Nat.ne_of_lt lt)
  have positions : (win.map fun x => distance e x.seq) ⊆ List.range w := by
    intro n hn
    obtain ⟨x, hx, rfl⟩ := List.mem_map.1 hn
    exact List.mem_range.2 (below x hx)
  simpa using (nodup.subperm positions).length_le

theorem WindowInOrder.single (f : FrameRecord) {w : Nat} (depth : 1 ≤ w) : WindowInOrder f.seq w [f] :=
  ⟨fun x hx => by rw [List.mem_singleton.1 hx, distance_self]; exact depth, List.pairwise_singleton _ _⟩

theorem WindowInOrder.filter {e : Seq} {w : Nat} {win : List FrameRecord} (h : WindowInOrder e w win)
    (p : FrameRecord → Bool) : WindowInOrder e w (win.filter p) :=
  ⟨fun x hx => h.1 x (List.mem_of_mem_filter hx), h.2.filter p⟩

/-- E moves on by `k` past positions that are empty. -/
theorem WindowInOrder.slide {e : Seq} {w : Nat} {win : List FrameRecord} (h : WindowInOrder e w win) (k : Nat)
    (empty : ∀ x ∈ win, k ≤ distance e x.seq) : WindowInOrder (e + BitVec.ofNat 16 k) w win := by
  obtain ⟨below, rising⟩ := h
  refine ⟨fun x hx => ?_, rising.imp_of_mem fun {a b} ha hb lt => ?_⟩
  · rw [distance_add (empty x hx)]
    exact (Nat.sub_le _ _).trans_lt (below x hx)
  · rw [distance_add (empty a ha), distance_add (empty b hb)]
    have := empty a ha
    omega

/-! ### Insertion in order of position -/

theorem insertFrame_perm (e : Seq) (f : FrameRecord) (win : List FrameRecord) : (insertFrame e f win).Perm (f :: win) := by
  induction win with
  | nil => exact List.Perm.refl _
  | cons x rest ih =>
    unfold insertFrame
    split
    · exact List.Perm.refl _
    · exact (ih.cons x).trans (List.Perm.swap f x rest)

/-- A frame joins a window at a position that is free. -/
theorem WindowInOrder.insert {e : Seq} {w : Nat} {win : List FrameRecord} (h : WindowInOrder e w win) (f : FrameRecord)
    (inside : distance e f.seq < w) (new : ∀ x ∈ win, distance e x.seq ≠ distance e f.seq) :
    WindowInOrder e w (insertFrame e f win) := by
  obtain ⟨below, rising⟩ := h
  refine ⟨fun x hx => ?_, ?_⟩
  · rcases List.mem_cons.1 ((insertFrame_perm e f win).mem_iff.1 hx) with rfl | hx
    · exact inside
    · exact below x hx
  clear below
  induction win with
  | nil => exact List.pairwise_singleton _ _
  | cons x rest ih =>
    obtain ⟨first, rising'⟩ := List.pairwise_cons.1 rising
    have newHere := new x List.mem_cons_self
    unfold insertFrame
    split
    · rename_i lt
      refine List.pairwise_cons.2 ⟨fun y hy => ?_, rising⟩
      rcases List.mem_cons.1 hy with rfl | hy
      · exact lt
      · exact lt.trans (first y hy)
    · rename_i le
      refine List.pairwise_cons.2 ⟨fun y hy => ?_, ih (fun y hy => new y (List.mem_cons_of_mem x hy)) rising'⟩
      rcases List.mem_cons.1 ((insertFrame_perm e f rest).mem_iff.1 hy) with rfl | hy
      · exact lt_of_le_of_ne (Nat.not_lt.1 le) newHere
      · exact first y hy

/-! ### The record at a position -/

theorem Synchroniser.at_isSome (y : Synchroniser) (pos : Nat) :
    (y.at pos).isSome = true ↔ ∃ x ∈ y.window, distance y.e x.seq = pos := by
  simp [Synchroniser.at, List.find?_isSome]

theorem Synchroniser.at_eq_none (y : Synchroniser) (pos : Nat) :
    y.at pos = none ↔ ∀ x ∈ y.window, distance y.e x.seq ≠ pos := by
  simp [Synchroniser.at, List.find?_eq_none]

theorem Synchroniser.mem_of_at (y : Synchroniser) {pos : Nat} {f : FrameRecord} (h : y.at pos = some f) :
    f ∈ y.window ∧ distance y.e f.seq = pos :=
  ⟨List.mem_of_find?_eq_some h, by simpa using List.find?_some h⟩

/-- Where the sequence numbers of a window differ, the record at position 0 is the one with sequence number E. -/
theorem Synchroniser.at_zero (y : Synchroniser) {f : FrameRecord} (hf : f ∈ y.window) (head : f.seq = y.e)
    (distinct : y.window.Pairwise fun a b => a.seq ≠ b.seq) : y.at 0 = some f := by
  obtain ⟨g, hg⟩ := Option.isSome_iff_exists.1 ((y.at_isSome 0).2 ⟨f, hf, (distance_eq_zero _ _).2 head⟩)
  obtain ⟨mem, pos⟩ := y.mem_of_at hg
  have same : g.seq = f.seq := ((distance_eq_zero _ _).1 pos).trans head.symm
  have nodup : (y.window.map FrameRecord.seq).Nodup := List.pairwise_map.2 distinct
  rw [hg, List.inj_on_of_nodup_map nodup mem hf same]

theorem Synchroniser.withoutHead_eq (y : Synchroniser) :
    y.withoutHead = y.window.filter fun x => decide (x.seq ≠ y.e) := by
  refine List.filter_congr fun x _ => ?_
  rw [Bool.eq_iff_iff, bne_iff_ne, decide_eq_true_iff, Ne, distance_eq_zero]

/-! ### What an arrival leaves, band by band (R37 to R42) -/

section
variable (y : Synchroniser) (f : FrameRecord)

theorem Synchroniser.arrive_of_seeking (seeking : y.st = .seeking) :
    y.arrive f = { sync := { y with e := f.seq, window := [f], st := .preroll, h := 0 }, skipped := 0, late := 0 } := by
  rw [Synchroniser.arrive, if_pos seeking]

variable (tuned : y.st ≠ .seeking)
include tuned

/-- The position of the frame is taken (R39). -/
theorem Synchroniser.arrive_of_duplicate (inside : distance y.e f.seq < y.w)
    (taken : ∃ x ∈ y.window, distance y.e x.seq = distance y.e f.seq) :
    y.arrive f = { sync := { y with duplicate := satInc y.duplicate }, skipped := 0, late := 0 } := by
  simp only [Synchroniser.arrive, if_neg tuned, if_pos inside, if_pos ((y.at_isSome _).2 taken)]

/-- The position of the frame is free (R39). -/
theorem Synchroniser.arrive_of_stored (inside : distance y.e f.seq < y.w)
    (free : ∀ x ∈ y.window, distance y.e x.seq ≠ distance y.e f.seq) :
    y.arrive f = { sync := { y with window := insertFrame y.e f y.window }, skipped := 0, late := 0 } := by
  simp only [Synchroniser.arrive, if_neg tuned, if_pos inside, (y.at_eq_none _).2 free, Option.isSome_none,
    Bool.false_eq_true, if_false]

/-- The frame is ahead of the window: E advances (R40). -/
theorem Synchroniser.arrive_of_advance (ahead : y.w ≤ distance y.e f.seq) (near : distance y.e f.seq ≤ 255) :
    y.arrive f =
      let e := f.seq - BitVec.ofNat 16 y.w + 1#16
      { sync :=
          { y with
            e := e, h := 0
            window := insertFrame e f (y.window.filter fun x => decide (distance e x.seq < y.w)) }
        skipped := distance y.e f.seq - y.w + 1, late := 0 } := by
  simp only [Synchroniser.arrive, if_neg tuned, if_neg (Nat.not_lt.2 ahead), if_pos near]

/-- The frame is far ahead: a discontinuity (R41). -/
theorem Synchroniser.arrive_of_discontinuity (ahead : y.w ≤ distance y.e f.seq) (far : 255 < distance y.e f.seq)
    (front : distance y.e f.seq ≤ 32767) :
    y.arrive f =
      { sync := { y with e := f.seq, window := [f], h := 0, discontinuities := satInc y.discontinuities }
        skipped := y.window.length, late := 0 } := by
  simp only [Synchroniser.arrive, if_neg tuned, if_neg (Nat.not_lt.2 ahead), if_neg (Nat.not_le.2 far), if_pos front]

/-- The frame is behind E (R42). -/
theorem Synchroniser.arrive_of_late (ahead : y.w ≤ distance y.e f.seq) (behind : 32767 < distance y.e f.seq) :
    y.arrive f = { sync := { y with late := satInc y.late }, skipped := 0, late := 1 } := by
  have far : 255 < distance y.e f.seq := by omega
  simp only [Synchroniser.arrive, if_neg tuned, if_neg (Nat.not_lt.2 ahead), if_neg (Nat.not_le.2 far),
    if_neg (Nat.not_le.2 behind)]

end

/-! ### What a release leaves (R45 to R49) -/

section
variable (y : Synchroniser)

theorem Synchroniser.dropCheck_of_drop (full : y.p < y.window.length) (taken : ∃ x ∈ y.window, x.seq = y.e) :
    y.dropCheck = ({ y with window := y.withoutHead, e := y.e + 1#16 }, 1) := by
  have head : (y.at 0).isSome = true := (y.at_isSome 0).2 (by simpa only [distance_eq_zero] using taken)
  rw [Synchroniser.dropCheck, if_pos ⟨full, head⟩]

theorem Synchroniser.dropCheck_of_keep (h : ¬ (y.p < y.window.length ∧ ∃ x ∈ y.window, x.seq = y.e)) :
    y.dropCheck = (y, 0) := by
  have keep : ¬ (y.window.length > y.p ∧ (y.at 0).isSome = true) := by
    simpa only [y.at_isSome, distance_eq_zero] using h
  rw [Synchroniser.dropCheck, if_neg keep]

/-- After a PRESENT, before the drop (R46). -/
def Synchroniser.presented (y : Synchroniser) : Synchroniser :=
  { y with window := y.withoutHead, e := y.e + 1#16, h := 0, repeatMark := true }

theorem Synchroniser.releaseRunning_of_present {f : FrameRecord} (head : y.at 0 = some f) :
    y.releaseRunning =
      { sync := y.presented.dropCheck.1, placement := .present f, drops := y.presented.dropCheck.2 } := by
  rw [Synchroniser.releaseRunning, head]
  rfl

theorem Synchroniser.releaseRunning_of_empty (empty : y.window = []) :
    y.releaseRunning = { sync := y, placement := y.repeatOrFill, drops := 0 } := by
  have head : y.at 0 = none := (y.at_eq_none 0).2 (by simp [empty])
  rw [Synchroniser.releaseRunning, head]
  exact if_pos empty

theorem Synchroniser.releaseRunning_of_gap (waiting : y.window ≠ []) (head : y.at 0 = none) :
    y.releaseRunning =
      if y.g < y.h + 1 then { sync := { y with e := y.e + 1#16, h := 0 }, placement := .fill, drops := 0 }
      else { sync := { y with h := y.h + 1 }, placement := y.repeatOrFill, drops := 0 } := by
  rw [Synchroniser.releaseRunning, head]
  exact if_neg waiting

theorem Synchroniser.release_of_seeking (h : y.st = .seeking) : y.release = { sync := y, placement := .fill, drops := 0 } := by
  simp only [Synchroniser.release, h]

theorem Synchroniser.release_of_lead (h : y.st = .preroll) (short : y.window.length < y.p) :
    y.release = { sync := y, placement := .fill, drops := 0 } := by
  simp only [Synchroniser.release, h, if_pos short]

theorem Synchroniser.release_of_started (h : y.st = .preroll) (full : y.p ≤ y.window.length) :
    y.release = Synchroniser.releaseRunning { y with st := .running, h := 0 } := by
  simp only [Synchroniser.release, h, if_neg (Nat.not_lt.2 full)]

theorem Synchroniser.release_of_running (h : y.st = .running) : y.release = y.releaseRunning := by
  simp only [Synchroniser.release, h]

end

/-! ### The window after an arrival and after a release (R36) -/

/-- The frame that makes the window advance takes its last position, which what is kept leaves free (R40). -/
theorem WindowInOrder.advance {e e' : Seq} {w : Nat} {win : List FrameRecord} (h : WindowInOrder e w win)
    (f : FrameRecord) (depth : 1 ≤ w) (shallow : w ≤ 8) (ahead : w ≤ distance e f.seq) (near : distance e f.seq ≤ 255)
    (moved : e' = e + BitVec.ofNat 16 (distance e f.seq - w + 1)) :
    WindowInOrder e' w (insertFrame e' f (win.filter fun x => decide (distance e' x.seq < w))) := by
  have last : distance e' f.seq = w - 1 := by
    rw [moved, distance_add (by omega)]
    omega
  have kept : ∀ x ∈ win.filter fun x => decide (distance e' x.seq < w), distance e f.seq - w + 1 ≤ distance e x.seq := by
    intro x hx
    by_contra gone
    have far := distance_add_of_lt (Nat.not_le.1 gone) (by omega)
    have stays : distance e' x.seq < w := by simpa using (List.mem_filter.1 hx).2
    rw [moved, far] at stays
    omega
  have slid := (h.filter _).slide _ kept
  rw [← moved] at slid
  refine slid.insert f (by omega) fun x hx => ?_
  have nearer := distance_add (kept x hx)
  have below := h.1 x (List.mem_of_mem_filter hx)
  have inside := kept x hx
  rw [← moved] at nearer
  omega

/-- A window without its head is in order once E has moved on. -/
theorem Synchroniser.withoutHead_inOrder (y : Synchroniser) (h : WindowInOrder y.e y.w y.window) :
    WindowInOrder (y.e + 1#16) y.w y.withoutHead := by
  refine (h.filter _).slide 1 fun x hx => Nat.pos_of_ne_zero ?_
  simpa using (List.mem_filter.1 hx).2

theorem Synchroniser.dropCheck_inOrder (y : Synchroniser) (h : WindowInOrder y.e y.w y.window) :
    WindowInOrder y.dropCheck.1.e y.w y.dropCheck.1.window := by
  unfold Synchroniser.dropCheck
  split
  · exact y.withoutHead_inOrder h
  · exact h

/-- The depth of the window and the order of its frames: what R36 says of a synchroniser. -/
def Synchroniser.WithinDepth (y : Synchroniser) : Prop := 1 ≤ y.w ∧ y.w ≤ 8 ∧ WindowInOrder y.e y.w y.window

theorem Synchroniser.withinDepth_iff (y : Synchroniser) :
    y.WithinDepth ↔ 1 ≤ y.w ∧ y.w ≤ 8 ∧ y.window.length ≤ y.w ∧ (∀ x ∈ y.window, (x.seq - y.e).toNat < y.w) ∧
      y.window.Pairwise fun a b => (a.seq - y.e).toNat < (b.seq - y.e).toNat :=
  ⟨fun ⟨depth, shallow, order⟩ => ⟨depth, shallow, order.length_le, order⟩,
    fun ⟨depth, shallow, _, order⟩ => ⟨depth, shallow, order⟩⟩

theorem Synchroniser.arrive_withinDepth (y : Synchroniser) (f : FrameRecord) (h : y.WithinDepth) :
    (y.arrive f).sync.WithinDepth := by
  obtain ⟨depth, shallow, order⟩ := h
  by_cases seeking : y.st = .seeking
  · rw [y.arrive_of_seeking f seeking]
    exact ⟨depth, shallow, .single f depth⟩
  by_cases inside : distance y.e f.seq < y.w
  · by_cases taken : ∃ x ∈ y.window, distance y.e x.seq = distance y.e f.seq
    · rw [y.arrive_of_duplicate f seeking inside taken]
      exact ⟨depth, shallow, order⟩
    · have free : ∀ x ∈ y.window, distance y.e x.seq ≠ distance y.e f.seq := fun x hx e => taken ⟨x, hx, e⟩
      rw [y.arrive_of_stored f seeking inside free]
      exact ⟨depth, shallow, order.insert f inside free⟩
  have ahead := Nat.not_lt.1 inside
  by_cases near : distance y.e f.seq ≤ 255
  · rw [y.arrive_of_advance f seeking ahead near]
    exact ⟨depth, shallow, order.advance f depth shallow ahead near (advance_eq y.e f.seq ahead)⟩
  by_cases front : distance y.e f.seq ≤ 32767
  · rw [y.arrive_of_discontinuity f seeking ahead (Nat.not_le.1 near) front]
    exact ⟨depth, shallow, .single f depth⟩
  · rw [y.arrive_of_late f seeking ahead (Nat.not_le.1 front)]
    exact ⟨depth, shallow, order⟩

theorem Synchroniser.releaseRunning_withinDepth (y : Synchroniser) (h : y.WithinDepth) :
    y.releaseRunning.sync.WithinDepth := by
  obtain ⟨depth, shallow, order⟩ := h
  cases head : y.at 0 with
  | some f =>
    have kept : y.presented.dropCheck.1.w = y.w := by
      unfold Synchroniser.dropCheck
      split <;> rfl
    rw [y.releaseRunning_of_present head, Synchroniser.WithinDepth, kept]
    exact ⟨depth, shallow, y.presented.dropCheck_inOrder (y.withoutHead_inOrder order)⟩
  | none =>
    by_cases empty : y.window = []
    · rw [y.releaseRunning_of_empty empty]
      exact ⟨depth, shallow, order⟩
    rw [y.releaseRunning_of_gap empty head]
    split
    · refine ⟨depth, shallow, order.slide 1 fun x hx => Nat.pos_of_ne_zero ?_⟩
      exact (y.at_eq_none 0).1 head x hx
    · exact ⟨depth, shallow, order⟩

theorem Synchroniser.release_withinDepth (y : Synchroniser) (h : y.WithinDepth) : y.release.sync.WithinDepth := by
  cases st : y.st with
  | seeking =>
    rw [y.release_of_seeking st]
    exact h
  | preroll =>
    by_cases short : y.window.length < y.p
    · rw [y.release_of_lead st short]
      exact h
    · rw [y.release_of_started st (Nat.not_lt.1 short)]
      exact Synchroniser.releaseRunning_withinDepth _ h
  | running =>
    rw [y.release_of_running st]
    exact y.releaseRunning_withinDepth h

/-! ### The close of a segment (R91 to R95) -/

/-- In a rising list nothing below what the search finds passes. -/
theorem not_of_lt_find {n : Nat} {p : Fin n → Bool} {l : List (Fin n)} (hl : l.Pairwise (· < ·)) {i j : Fin n}
    (found : l.find? p = some i) (hj : j ∈ l) (below : j < i) : p j = false := by
  induction l with
  | nil => cases hj
  | cons x l ih =>
    obtain ⟨first, rising⟩ := List.pairwise_cons.1 hl
    cases px : p x with
    | true =>
      rw [List.find?_cons_of_pos px] at found
      cases found
      rcases List.mem_cons.1 hj with rfl | hj
      · exact absurd below (lt_irrefl _)
      · exact absurd below (lt_asymm (first j hj))
    | false =>
      rw [List.find?_cons_of_neg (by simp [px])] at found
      rcases List.mem_cons.1 hj with rfl | hj
      · exact px
      · exact ih rising found hj

variable (s : State)

theorem State.openRecord_eq_none (c : Port) :
    s.openRecord c = none ↔ ∀ i, ¬ ((s.record i).st = .opened ∧ (s.record i).channel = c) := by
  simp only [State.openRecord, List.find?_eq_none, Bool.and_eq_true, beq_iff_eq]
  exact ⟨fun h i => h i (mem_allRecs i), fun h i _ => h i⟩

/-- The OPEN record found for a channel is its lowest. -/
theorem State.openRecord_least (c : Port) {i j : RecIx} (found : s.openRecord c = some i) (below : j < i) :
    ¬ ((s.record j).st = .opened ∧ (s.record j).channel = c) := by
  simpa using not_of_lt_find (List.pairwise_lt_finRange 64) found (mem_allRecs j) below

theorem State.closeOpen_of_none (torn : Bool) (c : Port) (h : s.openRecord c = none) : s.closeOpen torn c = s := by
  simp only [State.closeOpen, h]

theorem State.closeOpen_of_some (torn : Bool) (c : Port) {i : RecIx} (h : s.openRecord c = some i) :
    s.closeOpen torn c = s.closeRecord torn i := by
  simp only [State.closeOpen, h]

/-- A record as a close leaves it (R91). -/
def Record.closing (torn : Bool) (r : Record) : Record :=
  { r with st := .closing, short := decide (r.counts.placements < r.segLen), torn := torn }

theorem State.closeRecord_eq (torn : Bool) (i : RecIx) :
    s.closeRecord torn i =
      if (s.record i).pendingJobs = 0 then (s.onRec i (Record.closing torn)).closeComplete i
      else s.onRec i fun r => { r.closing torn with drainTimer := some s.status.cfg.drain } := by
  have pending : ((s.onRec i (Record.closing torn)).record i).pendingJobs = (s.record i).pendingJobs := by
    rw [State.record_onRec_same]
    rfl
  rw [← State.onRec_onRec s i (Record.closing torn) fun r => { r with drainTimer := some s.status.cfg.drain }, ← pending]
  rfl

/-- A record whose close is complete reports itself, its drain timer stopped (R92). -/
def State.reported (i : RecIx) (s : State) : State :=
  State.transmit (.report (s.record i).key (s.record i).counts.placements (s.record i).damage (s.record i).short
    (s.record i).torn) (s.onRec i fun r => { r with drainTimer := none })

/-- Close complete: the record reports itself, then it is freed (R95), decides (R93) or joins the write queue (R94). -/
theorem State.closeComplete_eq (i : RecIx) :
    s.closeComplete i =
      if (s.record i).storedElsewhere = true then (s.reported i).freeRecord i
      else if (s.record i).twin = true then
        (s.reported i).onRec i fun r => { r with st := .deciding, windowTimer := some s.status.cfg.rw }
      else (s.reported i).joinWriteQueue i := by
  unfold State.closeComplete State.reported
  simp only [State.record_onRec_same]
  rfl

/-! ### The statements -/

/-- Settles O18: the equation of an arrival in SEEKING. -/
theorem arrivalEndsSeeking : Obligations.ArrivalEndsSeeking :=
  fun y f seeking => y.arrive_of_seeking f seeking

/-- Settles O19, band by band. -/
theorem arrivalBands : Obligations.ArrivalBands := by
  intro y f tuned depth shallow d
  refine ⟨fun taken inside => ?_, fun free inside => ?_, fun ahead near => ?_, fun far front => ?_, fun behind => ?_⟩
  · exact y.arrive_of_duplicate f tuned inside taken
  · rw [y.arrive_of_stored f tuned inside free]
    exact ⟨rfl, rfl, rfl, insertFrame_perm _ _ _⟩
  · rw [y.arrive_of_advance f tuned ahead near]
    exact ⟨rfl, rfl, rfl, insertFrame_perm _ _ _⟩
  · exact y.arrive_of_discontinuity f tuned (by change y.w ≤ d; omega) far front
  · exact y.arrive_of_late f tuned (by change y.w ≤ d; omega) behind

/-- Settles O20: the release in each state, and in RUNNING by what stands at position 0. -/
theorem releaseOfATick : Obligations.ReleaseOfATick := by
  refine ⟨fun y => ⟨y.release_of_seeking, y.release_of_lead, fun preroll full => ?_, fun running empty => ?_,
    fun running waiting gap => ?_⟩, fun y f running hf head distinct => ?_⟩
  · rw [y.release_of_started preroll full]
    exact (Synchroniser.release_of_running { y with st := .running, h := 0 } rfl).symm
  · rw [y.release_of_running running, y.releaseRunning_of_empty empty]
    rfl
  · have none : y.at 0 = none := (y.at_eq_none 0).2 fun x hx => by
      rw [Ne, distance_eq_zero]
      exact gap x hx
    rw [y.release_of_running running, y.releaseRunning_of_gap waiting none]
    rfl
  · rw [y.release_of_running running, y.releaseRunning_of_present (y.at_zero hf head distinct)]
    refine ⟨rfl, ?_⟩
    intro left
    have leaves : y.presented.window = left := y.withoutHead_eq
    split
    · rename_i drop
      rw [← leaves] at drop
      rw [y.presented.dropCheck_of_drop drop.1 drop.2]
      refine ⟨rfl, ?_⟩
      rw [y.presented.withoutHead_eq, leaves, show y.presented.e + 1#16 = y.e + 2#16 from BitVec.add_assoc _ _ _]
      rfl
    · rename_i keep
      rw [← leaves] at keep ⊢
      rw [y.presented.dropCheck_of_keep keep]
      exact ⟨rfl, rfl⟩

/-- Settles O21: the order of the window is kept, and bounds its length. -/
theorem windowStaysWithinItsDepth : Obligations.WindowStaysWithinItsDepth := by
  unfold Obligations.WindowStaysWithinItsDepth
  intro good y before _
  have within : y.WithinDepth := y.withinDepth_iff.2 before
  exact ⟨fun f => (Synchroniser.withinDepth_iff _).1 (y.arrive_withinDepth f within),
    (Synchroniser.withinDepth_iff _).1 (y.release_withinDepth within)⟩

/-- Settles O30: the close, close complete, and the channel's OPEN record. -/
theorem closeAndCloseComplete : Obligations.CloseAndCloseComplete := by
  refine ⟨fun s torn i => ⟨fun pending => ?_, fun drained => ?_⟩,
    fun s i => ⟨fun elsewhere => ?_, fun here twin => ?_, fun here single => ?_⟩,
    fun s c => ⟨s.openRecord_eq_none c, fun i found => ?_, fun torn =>
      ⟨s.closeOpen_of_none torn c, fun i => s.closeOpen_of_some torn c⟩⟩⟩
  · rw [s.closeRecord_eq, if_neg pending]
    rfl
  · rw [s.closeRecord_eq, if_pos drained]
    rfl
  · rw [s.closeComplete_eq, if_pos elsewhere]
    rfl
  · rw [s.closeComplete_eq, if_neg (by simp [here]), if_pos twin]
    rfl
  · rw [s.closeComplete_eq, if_neg (by simp [here]), if_neg (by simp [single])]
    rfl
  · exact ⟨s.openRecord_some c i found, fun j below => s.openRecord_least c found below⟩

end Sys2Proof.Machine
end

section
/-! PROOFS. Takes and the cue buffer: the clamp of ARM's parameters, what each command to a channel leaves by the channel's
state, hold-over expiry, and what a boundary does. The facts about the operations come first; the statements follow. -/

namespace Sys2Proof.Machine

/-! ### The clamp (R58) -/

theorem clamp_clamped {lo hi : Nat} (x : Nat) (range : lo ≤ hi) : Clamped lo hi x (clamp lo hi x) := by
  simp only [Clamped, clamp]
  omega

/-- The quantiser's upper bound is clamped to 1 to 31, then raised to the lower bound, which lies within 1 to 31. -/
theorem clamp_raised {lo hi q : Nat} (x : Nat) (low : lo ≤ q) (high : q ≤ hi) :
    Clamped q hi x (max q (clamp lo hi x)) := by
  simp only [Clamped, clamp]
  omega

theorem le_clamp (lo hi x : Nat) : lo ≤ clamp lo hi x := le_max_left _ _

theorem clamp_le {lo hi : Nat} (x : Nat) (range : lo ≤ hi) : clamp lo hi x ≤ hi := max_le range (min_le_left _ _)

variable (s : State)

/-! ### Updates of one take controller -/

/-- Two changes of a take controller that agree on it as it stands are one change. -/
theorem State.onTake_congr (c : Port) {f g : TakeController → TakeController}
    (h : f (s.chan c).take = g (s.chan c).take) : s.onTake c f = s.onTake c g := by
  simp only [State.onTake, h]

/-! ### Answers (R176) -/

/-- What a channel command leaves with its answer: a REPLY where the command was addressed to this station. -/
def Taken.answer (kind : Byte) (m : Heard) (r : Taken) : State :=
  r.state.answered m r.code r.adjusted (portField m) kind

theorem Taken.answer_refuse (kind : Byte) (m : Heard) (code : ReplyCode) :
    (s.refuse code).answer kind m = s.answered m code false (m.payload.getD 0 0#8) kind := rfl

theorem Taken.answer_done (kind : Byte) (m : Heard) :
    s.done.answer kind m = s.answered m .done false (m.payload.getD 0 0#8) kind := rfl

theorem Taken.answer_of_station (kind : Byte) (m : Heard) (v : BitVec 16) (target : m.target = .station v) (r : Taken) :
    r.answer kind m = r.state.reply m.sender r.code r.adjusted (m.payload.getD 0 0#8) kind := by
  simp only [Taken.answer, State.answered, target, portField]

theorem State.onChannel_some (c : Port) (act : Port → State → Taken) : State.onChannel (some c) act s = act c s := rfl

theorem State.onChannel_none (act : Port → State → Taken) : State.onChannel none act s = s.refuse .badPort := rfl

/-! ### ARM (R57 to R59) -/

theorem exec_arm (m : Heard) (v : BitVec 16) (accepted : s.accepts m = true) (target : m.target = .station v)
    (enough : 23 ≤ m.payload.length) : exec (.arm m) s = .next ((s.arm m.payload).answer 0x10#8 m) := by
  rw [Taken.answer_of_station _ m v target]
  exact congrArg _ (s.command_of_station _ _ _ _ _ (State.arm m.payload) m v accepted target enough)

theorem State.arm_of_badPort (payload : List Byte) (port : parsePort payload = none) :
    s.arm payload = s.refuse .badPort := by
  simp only [State.arm, port]

section

variable (payload : List Byte) {c : Port} (port : parsePort payload = some c)
include port

theorem State.arm_of_busy (busy : (s.chan c).take.st ≠ .idle) : s.arm payload = s.refuse .busy := by
  simp only [State.arm, port, if_pos busy]

theorem State.arm_of_noFeed (idle : (s.chan c).take.st = .idle) (none : (parseArm payload).feed = 0#16) :
    s.arm payload = s.refuse .badField := by
  simp only [State.arm, port, if_neg (not_not_intro idle), if_pos none]

theorem State.arm_of_conflict (idle : (s.chan c).take.st = .idle) (named : (parseArm payload).feed ≠ 0#16)
    (held : (s.holder (parseArm payload).feed).isSome = true) : s.arm payload = s.refuse .conflict := by
  simp only [State.arm, port, if_neg (not_not_intro idle), if_neg named, if_pos held]

theorem State.arm_of_accepted (idle : (s.chan c).take.st = .idle) (named : (parseArm payload).feed ≠ 0#16)
    (unheld : ¬ (s.holder (parseArm payload).feed).isSome = true) :
    s.arm payload =
      let x := armParams (parseArm payload) s.status.cfg.params
      { state := (s.setChan c ((s.chan c).arm (parseArm payload).feed (clampParams x))).retally c, code := .done
        adjusted := decide (clampParams x ≠ x) } := by
  simp only [State.arm, port, if_neg (not_not_intro idle), if_neg named, if_neg unheld]

end

/-! ### DISARM (R60) -/

theorem exec_disarm (m : Heard) (v : BitVec 16) (accepted : s.accepts m = true) (target : m.target = .station v)
    (enough : m.payload ≠ []) :
    exec (.disarm m) s = .next ((State.onChannel (parsePort m.payload) State.disarm s).answer 0x11#8 m) := by
  rw [Taken.answer_of_station _ m v target]
  exact congrArg _ (s.command_of_station _ 1 _ _ _ (State.onChannel (parsePort m.payload) State.disarm) m v accepted
    target (List.length_pos_iff.2 enough))

/-- A channel as DISARM closes it: CLOSED, IDLE, with an empty window and no cue (R30, R51, R60). -/
def Channel.closed (x : Channel) : Channel :=
  { port := x.port.close, sync := x.sync.seek, take := x.take.toIdle, sel := x.sel }

theorem State.disarm_of_armed (c : Port) (armed : (s.chan c).take.st = .armed) :
    s.disarm c = ((s.setChan c (s.chan c).closed).retally c).done := by
  simp only [State.disarm, armed, State.closeChannel_eq, Channel.closed]

theorem State.disarm_of_taking (c : Port) (taking : (s.chan c).take.st = .recording ∨ (s.chan c).take.st = .ending) :
    s.disarm c = s.refuse .busy := by
  rcases taking with st | st <;> simp only [State.disarm, st]

theorem State.disarm_of_idle (c : Port) (idle : (s.chan c).take.st = .idle) : s.disarm c = s.refuse .notArmed := by
  simp only [State.disarm, idle]

/-! ### CUE (R61) -/

theorem exec_cue (m : Heard) (accepted : s.accepts m = true) (enough : 8 ≤ m.payload.length) :
    exec (.cue m) s =
      .next ((State.onChannel (s.commandPort m) (State.cueCommand (parseCue m.payload)) s).answer 0x12#8 m) :=
  congrArg _ (s.command_of_acts _ _ _ _ m accepted enough)

theorem badCue_iff (q : Cue) (st : ChannelState) :
    badCue q st = true ↔ q.clip = 0#32 ∧ (q.tie = false ∨ st = .armed) := by
  simp [badCue]

theorem State.cueCommand_of_idle (q : Cue) (c : Port) (idle : (s.chan c).take.st = .idle) :
    s.cueCommand q c = s.refuse .notArmed := by
  simp only [State.cueCommand, if_pos idle]

theorem State.cueCommand_of_ending (q : Cue) (c : Port) (ending : (s.chan c).take.st = .ending) :
    s.cueCommand q c = s.refuse .busy := by
  simp [State.cueCommand, ending]

/-- In ARMED and RECORDING a CUE goes by the cue itself, then by the buffer (checks 4 and 5 of R61). -/
theorem State.cueCommand_of_ready (q : Cue) (c : Port)
    (ready : (s.chan c).take.st = .armed ∨ (s.chan c).take.st = .recording) :
    s.cueCommand q c =
      if badCue q (s.chan c).take.st = true then s.refuse .badField
      else if (s.chan c).take.buffer.isSome = true then s.refuse .busy
      else (s.onTake c fun t => { t with buffer := some q, cueEmpty := false }).done := by
  rcases ready with st | st <;> simp [State.cueCommand, st]

/-! ### STOP and CUT (R68, R69) -/

theorem exec_stop (m : Heard) (accepted : s.accepts m = true) (enough : m.payload ≠ []) :
    exec (.stop m) s = .next ((State.onChannel (s.commandPort m) State.stopCommand s).answer 0x13#8 m) :=
  congrArg _ (s.command_of_acts _ _ _ _ m accepted (List.length_pos_iff.2 enough))

theorem exec_cut (m : Heard) (accepted : s.accepts m = true) (enough : m.payload ≠ []) :
    exec (.cut m) s = .next ((State.onChannel (s.commandPort m) State.cutCommand s).answer 0x14#8 m) :=
  congrArg _ (s.command_of_acts _ _ _ _ m accepted (List.length_pos_iff.2 enough))

theorem State.stopCommand_of_recording (c : Port) (recording : (s.chan c).take.st = .recording) :
    s.stopCommand c = ((s.onTake c fun t => { t with st := .ending, buffer := none }).retally c).done := by
  simp only [State.stopCommand, recording]

theorem State.stopCommand_of_armed (c : Port) (armed : (s.chan c).take.st = .armed) :
    s.stopCommand c =
      if (s.chan c).take.buffer.isSome = true then (s.onTake c fun t => { t with buffer := none }).done
      else s.refuse .notArmed := by
  simp only [State.stopCommand, armed]

theorem State.stopCommand_of_ending (c : Port) (ending : (s.chan c).take.st = .ending) :
    s.stopCommand c = s.refuse .busy := by
  simp only [State.stopCommand, ending]

theorem State.stopCommand_of_idle (c : Port) (idle : (s.chan c).take.st = .idle) :
    s.stopCommand c = s.refuse .notArmed := by
  simp only [State.stopCommand, idle]

theorem State.cutCommand_of_taking (c : Port)
    (taking : (s.chan c).take.st = .recording ∨ (s.chan c).take.st = .ending) :
    s.cutCommand c =
      (State.takeEnd .cut c (State.retally c ((s.closeOpen false c).onTake c TakeController.endTakeNow))).done := by
  simp only [State.cutCommand, if_pos taking]

theorem State.cutCommand_of_resting (c : Port) (resting : (s.chan c).take.st = .armed ∨ (s.chan c).take.st = .idle) :
    s.cutCommand c = s.refuse .notArmed := by
  rcases resting with st | st <;> simp [State.cutCommand, st]

/-! ### Hold-over expiry (R71) -/

theorem exec_holdOverExpiry (c : Port) : exec (.holdOverExpiry c) s = .next (s.takeHoldOver c) := rfl

theorem State.takeHoldOver_of_expired (c : Port) (recording : (s.chan c).take.st = .recording)
    (expired : (s.chan c).take.k < (s.chan c).take.holdOver) : s.takeHoldOver c = s.holdOverExpire c := by
  simp only [State.takeHoldOver, if_pos (And.intro recording expired)]

/-! ### The span's segment (R66, R67) -/

/-- A take controller as a boundary that leaves it RECORDING under a cue counts the span: a segment number is consumed and a
timed cue counts down (R67). -/
def TakeController.countSpan (q : Cue) (t : TakeController) : TakeController :=
  { t with remaining := if q.length = 0 then t.remaining else t.remaining - 1, nextSeg := t.nextSeg + 1#16 }

theorem TakeController.cueOpen_iff {t : TakeController} {q : Cue} (active : t.active = some q) :
    t.cueOpen = true ↔ q.length = 0 := by
  simp [TakeController.cueOpen, active]

theorem TakeController.cueOver_iff {t : TakeController} {q : Cue} (active : t.active = some q) :
    t.cueOver = true ↔ q.length = 0 ∨ t.remaining = 0 := by
  simp [TakeController.cueOver, active]

theorem State.openSpan_of_active (c : Port) {q : Cue} (active : (s.chan c).take.active = some q) :
    s.openSpan c =
      let counted := s.onTake c (TakeController.countSpan q)
      if q.pause = true then counted else counted.openSegment c (s.nextKey c) := by
  have counts := s.onTake_congr c (f := fun t =>
      { t with remaining := if t.cueOpen then t.remaining else t.remaining - 1, nextSeg := t.nextSeg + 1#16 })
    (g := TakeController.countSpan q) (by simp only [TakeController.countSpan, TakeController.cueOpen_iff active])
  simp only [State.openSpan, counts, active]

/-- An opening leaves its channel as it is but for the overruns counter (R86). -/
theorem State.openSegment_chan (c : Port) (key : Key) : ∃ n, (s.openSegment c key).chan c =
    { s.chan c with take := { (s.chan c).take with overruns := n } } := by
  have overrun (reason : Byte) : (s.overrun reason c).chan c =
      { s.chan c with take := { (s.chan c).take with overruns := satInc (s.chan c).take.overruns } } := by
    rw [State.overrun, State.channelNotice_chan, State.onTake_chan]
  unfold State.openSegment
  dsimp only
  split
  · exact ⟨_, overrun _⟩
  · split
    · exact ⟨_, State.onRec_chan _ _ _ _⟩
    · split
      · exact ⟨_, (State.onRec_chan _ _ _ _).trans (s.evict_chan _ _)⟩
      · exact ⟨_, overrun _⟩

theorem State.openSpan_take_sel (c : Port) {q : Cue} (active : (s.chan c).take.active = some q) :
    (∃ n, ((s.openSpan c).chan c).take = { (s.chan c).take.countSpan q with overruns := n }) ∧
      ((s.openSpan c).chan c).sel = (s.chan c).sel := by
  rw [s.openSpan_of_active c active]
  split
  · rw [State.onTake_chan]
    exact ⟨⟨_, rfl⟩, rfl⟩
  · obtain ⟨n, chan⟩ := (s.onTake c (TakeController.countSpan q)).openSegment_chan c (s.nextKey c)
    rw [chan, State.onTake_chan]
    exact ⟨⟨n, rfl⟩, rfl⟩

/-! ### The cue at a boundary (R64, R65) -/

theorem State.announceClip_take (c : Port) : ((s.announceClip c).chan c).take = (s.chan c).take := by
  simp [State.announceClip]

theorem State.announceClip_sel (c : Port) : ((s.announceClip c).chan c).sel = (s.chan c).sel.newClip := by
  simp [State.announceClip]

theorem State.takeStart_take (c : Port) (q : Cue) : ((s.takeStart c q).chan c).take =
    { ((s.chan c).take.load q).newClip q with holdOver := 0, st := .recording } := by
  rw [State.takeStart, State.announceClip_take, State.retally_take, State.onTake_chan]

theorem State.takeStart_sel (c : Port) (q : Cue) : ((s.takeStart c q).chan c).sel = (s.chan c).sel.newClip := by
  rw [State.takeStart, State.announceClip_sel, State.retally_sel, State.onTake_chan]

/-- A cue that replaces another leaves the channel state as it is (R65). -/
theorem State.replaceCue_st (c : Port) (q : Cue) :
    ((s.replaceCue c q).chan c).take.st = (s.chan c).take.st := by
  unfold State.replaceCue
  split
  · rw [State.channelNotice_chan, State.onTake_chan]
    rfl
  · rw [State.announceClip_take, State.onTake_chan]
    rfl

theorem State.settleCue_of_running (c : Port) (running : ¬ (s.chan c).take.cueOver = true) : s.settleCue c = s := by
  simp only [State.settleCue, if_neg running]

theorem State.settleCue_of_buffered (c : Port) {b : Cue} (spent : (s.chan c).take.cueOver = true)
    (buffered : (s.chan c).take.buffer = some b) : s.settleCue c = s.replaceCue c b := by
  simp only [State.settleCue, if_pos spent, buffered]

theorem State.settleCue_of_open (c : Port) (isOpen : (s.chan c).take.cueOpen = true)
    (empty : (s.chan c).take.buffer = none) : s.settleCue c = s := by
  simp only [State.settleCue, empty, if_pos isOpen, ite_self]

theorem State.settleCue_of_ended (c : Port) (spent : (s.chan c).take.cueOver = true)
    (timed : ¬ (s.chan c).take.cueOpen = true) (empty : (s.chan c).take.buffer = none) :
    s.settleCue c = State.takeEnd .normal c (State.retally c (s.onTake c TakeController.endTake)) := by
  simp only [State.settleCue, if_pos spent, empty, if_neg timed]

/-- What the end of a take at a boundary leaves of the take controller (R63, R65). -/
theorem State.endTake_take (reason : EndReason) (c : Port) :
    ((State.takeEnd reason c (State.retally c (s.onTake c TakeController.endTake))).chan c).take =
      (s.chan c).take.endTake := by
  rw [State.takeEnd, State.channelNotice_chan, State.retally_take, State.onTake_chan]

/-! ### The boundary by the channel state (R63 to R67) -/

theorem State.boundaryClose_of_ending (c : Port) (ending : (s.chan c).take.st = .ending) :
    s.boundaryClose c =
      State.takeEnd .stop c (State.retally c ((s.closeOpen false c).onTake c TakeController.endTake)) := by
  simp only [State.boundaryClose, State.closeOpen_chan, if_pos ending]

theorem State.boundaryClose_of_not_ending (c : Port) (h : (s.chan c).take.st ≠ .ending) :
    s.boundaryClose c = s.closeOpen false c := by
  simp only [State.boundaryClose, State.closeOpen_chan, if_neg h]

/-- Where the channel is ARMED with no cue after the boundary close, the boundary is over. -/
theorem State.boundary_of_uncued (c : Port) (armed : ((s.boundaryClose c).chan c).take.st = .armed)
    (empty : ((s.boundaryClose c).chan c).take.buffer = none) : s.boundary c = s.boundaryClose c := by
  simp [State.boundary, armed, empty]

theorem State.boundary_of_ending (c : Port) (ending : (s.chan c).take.st = .ending)
    (empty : (s.chan c).take.buffer = none) :
    s.boundary c =
      State.takeEnd .stop c (State.retally c ((s.closeOpen false c).onTake c TakeController.endTake)) := by
  have take : ((s.boundaryClose c).chan c).take = (s.chan c).take.endTake := by
    rw [s.boundaryClose_of_ending c ending, State.endTake_take, State.closeOpen_chan]
  rw [s.boundary_of_uncued c (by rw [take]; rfl) (by rw [take]; exact empty), s.boundaryClose_of_ending c ending]

theorem State.boundary_of_armed_empty (c : Port) (armed : (s.chan c).take.st = .armed)
    (empty : (s.chan c).take.buffer = none) : s.boundary c = s.closeOpen false c := by
  have close := s.boundaryClose_of_not_ending c (by simp [armed])
  rw [s.boundary_of_uncued c (by simp [close, armed]) (by simp [close, empty]), close]

theorem State.boundary_of_armed_cued (c : Port) {q : Cue} (armed : (s.chan c).take.st = .armed)
    (cued : (s.chan c).take.buffer = some q) : s.boundary c = State.openSpan c ((s.closeOpen false c).takeStart c q) := by
  have close := s.boundaryClose_of_not_ending c (by simp [armed])
  simp only [State.boundary, close, State.closeOpen_chan, armed, cued, State.takeStart_take, if_true]

theorem State.boundary_of_recording (c : Port) (recording : (s.chan c).take.st = .recording) :
    s.boundary c =
      let settled := (s.closeOpen false c).settleCue c
      if (settled.chan c).take.st = .recording then settled.openSpan c else settled := by
  have close := s.boundaryClose_of_not_ending c (by simp [recording])
  simp only [State.boundary, close, State.closeOpen_chan, recording]

/-- A boundary in RECORDING whose cue settlement leaves the take going opens the next span. -/
theorem State.boundary_of_going_on (c : Port) {u : State} (recording : (s.chan c).take.st = .recording)
    (settled : (s.closeOpen false c).settleCue c = u) (goesOn : (u.chan c).take.st = .recording) :
    s.boundary c = u.openSpan c := by
  simp only [s.boundary_of_recording c recording, settled, if_pos goesOn]

section

variable (c : Port) {q : Cue} (recording : (s.chan c).take.st = .recording)
  (active : (s.chan c).take.active = some q)
include recording active

/-- The active cue stays: it is open with nothing to replace it, or timed with segments left (R65). -/
theorem State.boundary_of_cue_stays
    (stays : (q.length = 0 ∧ (s.chan c).take.buffer = none) ∨ (q.length ≠ 0 ∧ (s.chan c).take.remaining ≠ 0)) :
    s.boundary c = State.openSpan c (s.closeOpen false c) := by
  refine s.boundary_of_going_on c recording ?_ (by rw [State.closeOpen_chan]; exact recording)
  rcases stays with ⟨isOpen, empty⟩ | ⟨timed, left⟩
  · refine State.settleCue_of_open _ c ?_ ?_ <;> rw [State.closeOpen_chan]
    · exact (TakeController.cueOpen_iff active).2 isOpen
    · exact empty
  · refine State.settleCue_of_running _ c ?_
    rw [State.closeOpen_chan, TakeController.cueOver_iff active]
    exact not_or_intro timed left

/-- The active cue gives way to the buffered one: it is open, or timed and used up (R65). -/
theorem State.boundary_of_cue_replaced {b : Cue} (spent : q.length = 0 ∨ (s.chan c).take.remaining = 0)
    (buffered : (s.chan c).take.buffer = some b) :
    s.boundary c = State.openSpan c ((s.closeOpen false c).replaceCue c b) := by
  refine s.boundary_of_going_on c recording (State.settleCue_of_buffered _ c ?_ ?_) ?_
  · rw [State.closeOpen_chan]
    exact (TakeController.cueOver_iff active).2 spent
  · rw [State.closeOpen_chan]
    exact buffered
  · rw [State.replaceCue_st, State.closeOpen_chan]
    exact recording

/-- A timed cue that is used up with nothing to replace it ends the take (R65). -/
theorem State.boundary_of_cue_ended (timed : q.length ≠ 0) (used : (s.chan c).take.remaining = 0)
    (empty : (s.chan c).take.buffer = none) :
    s.boundary c =
      State.takeEnd .normal c (State.retally c ((s.closeOpen false c).onTake c TakeController.endTake)) := by
  have settled := (s.closeOpen false c).settleCue_of_ended c
    (by rw [State.closeOpen_chan]; exact (TakeController.cueOver_iff active).2 (.inr used))
    (by rw [State.closeOpen_chan, TakeController.cueOpen_iff active]; exact timed)
    (by rw [State.closeOpen_chan]; exact empty)
  simp only [s.boundary_of_recording c recording, settled, State.endTake_take, TakeController.endTake, reduceCtorEq,
    if_false]

end

/-! ### The statements -/

/-- Settles O6: each range is not empty, the dependent ones because the value they rest on has been clamped before. -/
theorem clampBringsIntoRange : Obligations.ClampBringsIntoRange := by
  unfold Obligations.ClampBringsIntoRange
  intro x
  have target : 2 * clamp 512 65535 x.target ≤ 4194304 := by
    have := clamp_le x.target (show 512 ≤ 65535 by decide)
    omega
  exact ⟨clamp_clamped _ (by decide), clamp_clamped _ (by decide), clamp_clamped _ (le_clamp 1 8 x.w),
    clamp_clamped _ (by decide), clamp_clamped _ (by decide), clamp_clamped _ (by decide), clamp_clamped _ (by decide),
    clamp_clamped _ (le_clamp 1 16 x.d), clamp_clamped _ (by decide), clamp_clamped _ target,
    clamp_clamped _ (by decide), clamp_raised _ (le_clamp 1 31 x.qMin) (clamp_le x.qMin (by decide)), rfl, rfl⟩

/-- Settles O22: the checks of R57 in their order, and the channel that an accepted ARM leaves. -/
theorem armByItsChecks : Obligations.ArmByItsChecks := by
  unfold Obligations.ArmByItsChecks
  refine ⟨fun s m v c accepted target enough port idle named unheld => ?accepted,
    fun s m v accepted target enough => ?refused⟩
  case accepted =>
    have free : ¬ (s.holder (parseArm m.payload).feed).isSome = true := by
      rw [s.holder_isSome]
      rintro ⟨d, busy, same⟩
      exact unheld d busy same
    rw [exec_arm s m v accepted target enough, Taken.answer_of_station _ m v target,
      s.arm_of_accepted m.payload port idle named free]
    rfl
  case refused =>
    dsimp only
    rw [exec_arm s m v accepted target enough, Taken.answer_of_station _ m v target]
    refine ⟨fun port => ?_, fun c port => ⟨fun busy => ?_, fun idle noFeed => ?_, fun idle named held => ?_⟩⟩
    · rw [s.arm_of_badPort _ port]
      rfl
    · rw [s.arm_of_busy _ port busy]
      rfl
    · rw [s.arm_of_noFeed _ port idle noFeed]
      rfl
    · rw [s.arm_of_conflict _ port idle named ((s.holder_isSome _).2 held)]
      rfl

/-- Settles O23: a refusal of the port, and DISARM in each channel state. -/
theorem disarmByState : Obligations.DisarmByState := by
  unfold Obligations.DisarmByState
  intro s m v accepted target enough
  dsimp only
  rw [exec_disarm s m v accepted target enough, Taken.answer_of_station _ m v target]
  refine ⟨fun port => ?_, fun c port => ?_⟩
  · rw [port, State.onChannel_none]
    rfl
  · rw [port, State.onChannel_some]
    refine ⟨fun armed => ?_, fun taking => ?_, fun idle => ?_⟩
    · rw [s.disarm_of_armed c armed]
      rfl
    · rw [s.disarm_of_taking c taking]
      rfl
    · rw [s.disarm_of_idle c idle]
      rfl

/-- Settles O24: the checks of R61 in their order. -/
theorem cueChecked : Obligations.CueChecked := by
  unfold Obligations.CueChecked
  intro s m accepted enough
  dsimp only
  rw [exec_cue s m accepted enough]
  refine ⟨fun port => ?_, fun c port => ?_⟩
  · rw [port, State.onChannel_none, Taken.answer_refuse]
  · rw [port, State.onChannel_some]
    refine ⟨fun idle => ?_, fun ending => ?_, fun ready => ?_⟩
    · rw [s.cueCommand_of_idle _ c idle, Taken.answer_refuse]
    · rw [s.cueCommand_of_ending _ c ending, Taken.answer_refuse]
    · rw [s.cueCommand_of_ready _ c ready, ← badCue_iff]
      refine ⟨fun bad => ?_, fun good full => ?_, fun good empty => ?_⟩
      · rw [if_pos bad, Taken.answer_refuse]
      · rw [if_neg good, if_pos (Option.isSome_iff_ne_none.2 full), Taken.answer_refuse]
      · rw [if_neg good, if_neg (by simp [empty]), Taken.answer_done]

/-- Settles O25: STOP and CUT in each channel state, and the expiry that the command finds due. -/
theorem stopCutAndHoldOver : Obligations.StopCutAndHoldOver := by
  unfold Obligations.StopCutAndHoldOver
  refine ⟨fun s m accepted enough => ?stop, fun s m accepted enough => ?cut, fun s c recording expired => ?holdOver⟩
  case stop =>
    dsimp only
    rw [exec_stop s m accepted enough]
    refine ⟨fun port => ?_, fun c port => ?_⟩
    · rw [port, State.onChannel_none, Taken.answer_refuse]
    · rw [port, State.onChannel_some]
      refine ⟨fun recording => ?_, fun armed full => ?_, fun armed empty => ?_, fun ending => ?_, fun idle => ?_⟩
      · rw [s.stopCommand_of_recording c recording, Taken.answer_done]
      · rw [s.stopCommand_of_armed c armed, if_pos (Option.isSome_iff_ne_none.2 full), Taken.answer_done]
      · rw [s.stopCommand_of_armed c armed, if_neg (by simp [empty]), Taken.answer_refuse]
      · rw [s.stopCommand_of_ending c ending, Taken.answer_refuse]
      · rw [s.stopCommand_of_idle c idle, Taken.answer_refuse]
  case cut =>
    dsimp only
    rw [exec_cut s m accepted enough]
    refine ⟨fun port => ?_, fun c port => ?_⟩
    · rw [port, State.onChannel_none, Taken.answer_refuse]
    · rw [port, State.onChannel_some]
      refine ⟨fun taking => ?_, fun resting => ?_⟩
      · rw [s.cutCommand_of_taking c taking, Taken.answer_done]
        rfl
      · rw [s.cutCommand_of_resting c resting, Taken.answer_refuse]
  case holdOver =>
    rw [exec_holdOverExpiry s c, s.takeHoldOver_of_expired c recording expired]
    rfl

/-- Settles O27: the boundary by the channel state, the take that it starts, and the span that it opens. -/
theorem boundaryStartsATake : Obligations.BoundaryStartsATake := by
  unfold Obligations.BoundaryStartsATake
  refine ⟨fun s c q armed cued _ => ?start, fun s c => ?byState, fun s c _ active =>
    s.openSpan_of_active c active⟩
  case start =>
    have take := (s.closeOpen false c).takeStart_take c q
    have sel := (s.closeOpen false c).takeStart_sel c q
    rw [State.closeOpen_chan] at take sel
    have active : (((s.closeOpen false c).takeStart c q).chan c).take.active = some q := by rw [take]; rfl
    have length : (if q.length = 0 then q.length else q.length - 1) = q.length - 1 := by split <;> omega
    obtain ⟨⟨n, spanTake⟩, spanSel⟩ := State.openSpan_take_sel _ c active
    rw [s.boundary_of_armed_cued c armed cued, spanTake, spanSel, take, sel, ← length]
    exact ⟨rfl, rfl⟩
  case byState =>
    refine ⟨s.boundary_of_armed_empty c, fun q => s.boundary_of_armed_cued c, s.boundary_of_ending c,
      fun q recording active => ⟨s.boundary_of_cue_stays c recording active, fun b spent buffered => ?_,
        s.boundary_of_cue_ended c recording active⟩⟩
    rw [s.boundary_of_cue_replaced c recording active spent buffered, State.replaceCue]
    refine ⟨fun tie => ?_, fun untied => ?_⟩
    · rw [if_pos tie]
      rfl
    · rw [if_neg (by simp [untied])]
      rfl

end Sys2Proof.Machine
end

section
/-! PROOFS. The staging pool: the pages of a record and of the whole pool, the oldest HELD record, evictions and the low-mark
test, and what a page request takes and gives back (R79 to R82). -/

namespace Sys2Proof.Machine

/-! ### The page lists of a record -/

/-- How often a page stands on the two lists of a record. -/
def Record.pageCount (r : Record) (p : Nat) : Nat := r.essPages.count p + r.brwPages.count p

@[simp] theorem Record.pages_withPages (l : PageList) (q : List Nat) (r : Record) : (r.withPages l q).pages l = q := by
  cases l <;> rfl

@[simp] theorem Record.withPages_pages (l : PageList) (r : Record) : r.withPages l (r.pages l) = r := by cases l <;> rfl

@[simp] theorem Record.withPages_withPages (l : PageList) (q q' : List Nat) (r : Record) :
    (r.withPages l q).withPages l q' = r.withPages l q' := by cases l <;> rfl

@[simp] theorem Record.withPages_st (l : PageList) (q : List Nat) (r : Record) : (r.withPages l q).st = r.st := by
  cases l <;> rfl

@[simp] theorem Record.withPages_pendingJobs (l : PageList) (q : List Nat) (r : Record) :
    (r.withPages l q).pendingJobs = r.pendingJobs := by cases l <;> rfl

/-- Replacing a page list changes the count of a page by what the two lists differ. -/
theorem Record.pageCount_withPages (l : PageList) (q : List Nat) (r : Record) (p : Nat) :
    (r.withPages l q).pageCount p + (r.pages l).count p = r.pageCount p + q.count p := by
  cases l <;> simp only [Record.pageCount, Record.withPages, Record.pages] <;> omega

variable (s : State)

/-! ### The pages of the pool (R79) -/

/-- The state with another free list. -/
def State.withFree (free : List Nat) (s : State) : State := { s with pool := { s.pool with free := free } }

/-- Two changes of a record that agree on the record as it stands are one change. -/
theorem State.onRec_congr (i : RecIx) {f g : Record → Record} (h : f (s.record i) = g (s.record i)) :
    s.onRec i f = s.onRec i g := by
  simp only [State.onRec, h]

/-- A change of a record that leaves it as it stands is none. -/
theorem State.onRec_of_same (i : RecIx) {f : Record → Record} (h : f (s.record i) = s.record i) : s.onRec i f = s := by
  have standing : s.pool.records.set i (s.record i) = s.pool.records := Vector.set_getElem_self i.isLt
  simp only [State.onRec, h, standing]

/-- Pages that move between the free list and one record are neither lost nor doubled. -/
theorem pageCount_of_moved {s t : State} (i : RecIx) (p : Nat) (others : ∀ j, j ≠ i → t.record j = s.record j)
    (balance : t.pool.free.count p + (t.record i).pageCount p = s.pool.free.count p + (s.record i).pageCount p) :
    pageCount t p = pageCount s p := by
  have apart (u : State) : pageCount u p =
      u.pool.free.count p + ((u.record i).pageCount p + ∑ j ∈ Finset.univ.erase i, (u.record j).pageCount p) := by
    rw [Finset.add_sum_erase _ (fun j => (u.record j).pageCount p) (Finset.mem_univ i)]
    rfl
  have rest : ∑ j ∈ Finset.univ.erase i, (t.record j).pageCount p = ∑ j ∈ Finset.univ.erase i, (s.record j).pageCount p :=
    Finset.sum_congr rfl fun j hj => by rw [others j (Finset.ne_of_mem_erase hj)]
  rw [apart, apart, rest]
  omega

/-- The count of pages reads the free list and the records alone. -/
theorem pageCount_of_same {s t : State} (p : Nat) (free : t.pool.free = s.pool.free)
    (records : t.pool.records = s.pool.records) : pageCount t p = pageCount s p := by
  simp only [pageCount, State.record, free, records]

theorem State.freeRecord_pageCount (i : RecIx) (p : Nat) : pageCount (s.freeRecord i) p = pageCount s p := by
  refine pageCount_of_moved i p (fun j other => by rw [State.freeRecord_record, if_neg other]) ?_
  rw [State.freeRecord_record, if_pos rfl, State.freeRecord_free]
  simp only [Record.pageCount, Record.cleared, List.count_append, List.count_nil]
  omega

/-! ### Evictions (R80) -/

theorem State.evict_eq (i : RecIx) : s.evict i = State.channelNotice .evicted 0x00#8 (s.record i).channel
    { s.freeRecord i with
      pool := { (s.freeRecord i).pool with evictions := min 65535 (s.pool.evictions + 1) } } := rfl

theorem State.evict_record (i j : RecIx) : (s.evict i).record j = if j = i then Record.cleared else s.record j := by
  rw [State.evict_eq, State.channelNotice_record, ← State.freeRecord_record]
  rfl

@[simp] theorem State.evict_status (i : RecIx) : (s.evict i).status = s.status := (s.evict_keeps i).status

theorem State.evict_pageCount (i : RecIx) (p : Nat) : pageCount (s.evict i) p = pageCount s p := by
  rw [← s.freeRecord_pageCount i p, State.evict_eq]
  exact pageCount_of_same p (by simp) (by simp)

/-! ### The oldest HELD record (R80) -/

/-- One record is older than another: decided earlier, or at the same time and of lower index (R80). -/
def State.Older (s : State) (i j : RecIx) : Prop :=
  (s.record i).decisionNumber < (s.record j).decisionNumber ∨
    ((s.record i).decisionNumber = (s.record j).decisionNumber ∧ i < j)

theorem State.Older.trans {s : State} {i j k : RecIx} (h : s.Older i j) (h' : s.Older j k) : s.Older i k := by
  rcases h with h | ⟨h, lower⟩ <;> rcases h' with h' | ⟨h', lower'⟩
  · exact .inl (h.trans h')
  · exact .inl (h' ▸ h)
  · exact .inl (h ▸ h')
  · exact .inr ⟨h.trans h', lower.trans lower'⟩

/-- What the search through a rising list of records has found. -/
structure State.FoundOldest (s : State) (l : List RecIx) (best : Option RecIx) : Prop where
  none_held : best = none → ∀ i ∈ l, (s.record i).st ≠ .held
  oldest : ∀ i, best = some i →
    i ∈ l ∧ (s.record i).st = .held ∧ ∀ j ∈ l, (s.record j).st = .held → j ≠ i → s.Older i j

/-- One more record, of higher index than all before. -/
theorem State.FoundOldest.snoc {s : State} {l : List RecIx} {best : Option RecIx} (h : s.FoundOldest l best) (x : RecIx)
    (above : ∀ j ∈ l, j < x) : s.FoundOldest (l ++ [x]) (s.olderHeld best x) := by
  have split (j : RecIx) : j ∈ l ++ [x] ↔ j ∈ l ∨ j = x := by simp
  unfold State.olderHeld
  by_cases held : (s.record x).st = .held
  · rw [if_pos held]
    cases best with
    | none =>
      refine ⟨nofun, fun i e => ?_⟩
      cases e
      refine ⟨by simp, held, fun j hj heldJ ne => ?_⟩
      exact absurd heldJ (h.none_held rfl j (((split j).1 hj).resolve_right ne))
    | some b =>
      obtain ⟨mem, heldB, older⟩ := h.oldest b rfl
      dsimp only
      split
      · rename_i later
        refine ⟨nofun, fun i e => ?_⟩
        cases e
        refine ⟨by simp, held, fun j hj heldJ ne => ?_⟩
        by_cases eq : j = b
        · exact eq ▸ .inl later
        · exact State.Older.trans (.inl later) (older j (((split j).1 hj).resolve_right ne) heldJ eq)
      · rename_i notLater
        refine ⟨nofun, fun i e => ?_⟩
        cases e
        refine ⟨by simp [mem], heldB, fun j hj heldJ ne => ?_⟩
        rcases (split j).1 hj with inside | rfl
        · exact older j inside heldJ ne
        · exact (Nat.lt_or_eq_of_le (Nat.not_lt.1 notLater)).imp_right fun same => ⟨same, above b mem⟩
  · rw [if_neg held]
    refine ⟨fun e i hi => ?_, fun i e => ?_⟩
    · rcases (split i).1 hi with inside | rfl
      · exact h.none_held e i inside
      · exact held
    · obtain ⟨mem, heldI, older⟩ := h.oldest i e
      refine ⟨by simp [mem], heldI, fun j hj heldJ ne => ?_⟩
      rcases (split j).1 hj with inside | rfl
      · exact older j inside heldJ ne
      · exact absurd heldJ held

theorem State.foundOldest_foldl (l : List RecIx) (rising : l.Pairwise (· < ·)) :
    s.FoundOldest l (l.foldl s.olderHeld none) := by
  induction l using List.reverseRecOn with
  | nil => exact ⟨fun _ _ h => (List.not_mem_nil h).elim, nofun⟩
  | append_singleton l x ih =>
    obtain ⟨init, _, below⟩ := List.pairwise_append.1 rising
    rw [List.foldl_append]
    exact (ih init).snoc x fun j hj => below j hj x (List.mem_singleton_self x)

theorem State.foundOldest : s.FoundOldest allRecs s.oldestHeld :=
  s.foundOldest_foldl allRecs (List.pairwise_lt_finRange 64)

theorem State.oldestHeld_eq_none : s.oldestHeld = none ↔ ∀ i, (s.record i).st ≠ .held := by
  refine ⟨fun e i => s.foundOldest.none_held e i (mem_allRecs i), fun none => ?_⟩
  cases e : s.oldestHeld with
  | none => rfl
  | some i => exact absurd (s.foundOldest.oldest i e).2.1 (none i)

theorem State.oldestHeld_held {i : RecIx} (h : s.oldestHeld = some i) : (s.record i).st = .held :=
  (s.foundOldest.oldest i h).2.1

/-! ### The low-mark test (R81) -/

/-- The low-mark test makes evictions of HELD records and nothing else: what these keep, it keeps. -/
theorem State.lowMarkTest_induct {P : State → Prop} (evict : ∀ t i, P t → (t.record i).st = .held → P (t.evict i))
    (fuel : Nat) (s : State) (h : P s) : P (s.lowMarkTest fuel) := by
  induction fuel generalizing s with
  | zero => exact h
  | succ n ih =>
    unfold State.lowMarkTest
    split
    · split
      · rename_i i found
        exact ih _ (evict s i h (s.oldestHeld_held found))
      · exact h
    · exact h

/-- A record that is not HELD is not evicted. -/
theorem State.lowMarkTest_record (fuel : Nat) (i : RecIx) (kept : (s.record i).st ≠ .held) :
    (s.lowMarkTest fuel).record i = s.record i := by
  refine State.lowMarkTest_induct (P := fun t => t.record i = s.record i) (fun t j same held => ?_) fuel s rfl
  have other : i ≠ j := fun e => kept (by rw [← same, e, held])
  rw [State.evict_record, if_neg other, same]

theorem State.lowMarkTest_of_enough (fuel : Nat) (h : s.status.cfg.lowMark ≤ s.pool.free.length) :
    s.lowMarkTest fuel = s := by
  cases fuel with
  | zero => rfl
  | succ n => rw [State.lowMarkTest, if_neg (Nat.not_lt.2 h)]

theorem State.lowMarkTest_of_none (fuel : Nat) (h : s.oldestHeld = none) : s.lowMarkTest fuel = s := by
  cases fuel with
  | zero => rfl
  | succ n =>
    rw [State.lowMarkTest, h]
    dsimp only
    split <;> rfl

theorem State.lowMarkTest_succ (n : Nat) {i : RecIx} (low : s.pool.free.length < s.status.cfg.lowMark)
    (h : s.oldestHeld = some i) : s.lowMarkTest (n + 1) = (s.evict i).lowMarkTest n := by
  rw [State.lowMarkTest, if_pos low, h]

/-- The HELD records. -/
def State.heldRecords (s : State) : Finset RecIx := Finset.univ.filter fun i => (s.record i).st = .held

theorem State.heldRecords_evict (i : RecIx) : (s.evict i).heldRecords = s.heldRecords.erase i := by
  ext j
  simp only [State.heldRecords, Finset.mem_filter, Finset.mem_univ, true_and, Finset.mem_erase, State.evict_record]
  by_cases e : j = i
  · simp [e, Record.cleared]
  · simp [e]

/-- With fuel for every HELD record the low mark is met, or no record is HELD any more. -/
theorem State.lowMarkTest_meets (fuel : Nat) (enough : s.heldRecords.card ≤ fuel)
    (low : (s.lowMarkTest fuel).pool.free.length < s.status.cfg.lowMark) : (s.lowMarkTest fuel).oldestHeld = none := by
  induction fuel generalizing s with
  | zero =>
    have empty : s.heldRecords = ∅ := Finset.card_eq_zero.1 (Nat.le_zero.1 enough)
    refine s.oldestHeld_eq_none.2 fun i held => ?_
    exact absurd (empty ▸ Finset.mem_filter.2 ⟨Finset.mem_univ i, held⟩ : i ∈ (∅ : Finset RecIx)) (Finset.notMem_empty i)
  | succ n ih =>
    by_cases missed : s.pool.free.length < s.status.cfg.lowMark
    · cases found : s.oldestHeld with
      | none => rw [s.lowMarkTest_of_none _ found, found]
      | some i =>
        rw [s.lowMarkTest_succ n missed found] at low ⊢
        have inside : i ∈ s.heldRecords := Finset.mem_filter.2 ⟨Finset.mem_univ i, s.oldestHeld_held found⟩
        refine ih _ ?_ (by rwa [State.evict_status])
        rw [State.heldRecords_evict, Finset.card_erase_of_mem inside]
        omega
    · rw [s.lowMarkTest_of_enough _ (Nat.not_lt.1 missed)] at low
      exact absurd low missed

theorem State.card_heldRecords : s.heldRecords.card ≤ 64 := (Finset.card_le_univ _).trans (by simp)

/-! ### Taking pages (R82) -/

/-- The page at the head of the free list goes to the tail of a list of a record. -/
def State.takeHead (i : RecIx) (l : PageList) (p : Nat) (rest : List Nat) (s : State) : State :=
  (s.withFree rest).onRec i fun r => r.withPages l (r.pages l ++ [p])

theorem State.takeHead_eq (i : RecIx) (l : PageList) (p : Nat) (rest : List Nat) :
    s.takeHead i l p rest = (s.withFree rest).onRec i fun r => r.withPages l ((s.record i).pages l ++ [p]) :=
  State.onRec_congr _ i rfl

theorem State.takeHead_record (i : RecIx) (l : PageList) (p : Nat) (rest : List Nat) (j : RecIx) :
    (s.takeHead i l p rest).record j =
      if j = i then (s.record i).withPages l ((s.record i).pages l ++ [p]) else s.record j := by
  rw [State.takeHead, State.record_onRec]
  rfl

@[simp] theorem State.takeHead_free (i : RecIx) (l : PageList) (p : Nat) (rest : List Nat) :
    (s.takeHead i l p rest).pool.free = rest := rfl

theorem State.takeHead_pageCount (i : RecIx) (l : PageList) {p : Nat} {rest : List Nat} (head : s.pool.free = p :: rest)
    (q : Nat) : pageCount (s.takeHead i l p rest) q = pageCount s q := by
  refine pageCount_of_moved i q (fun j other => by rw [State.takeHead_record, if_neg other]) ?_
  have lists := (s.record i).pageCount_withPages l ((s.record i).pages l ++ [p]) q
  rw [State.takeHead_record, if_pos rfl, head, State.takeHead_free]
  simp only [List.count_append, List.count_cons, List.count_nil] at lists ⊢
  omega

theorem State.takePages_zero (i : RecIx) (l : PageList) : s.takePages i l 0 = (s, true) := rfl

theorem State.takePages_of_empty (i : RecIx) (l : PageList) (n : Nat) (h : s.pool.free = []) :
    s.takePages i l (n + 1) = (s, false) := by
  rw [State.takePages, State.takePage, h]

theorem State.takePages_of_head (i : RecIx) (l : PageList) (n : Nat) {p : Nat} {rest : List Nat}
    (h : s.pool.free = p :: rest) :
    s.takePages i l (n + 1) = State.takePages i l n ((s.takeHead i l p rest).lowMarkTest 64) := by
  rw [State.takePages, State.takePage, h]
  rfl

/-- Pages are taken one by one from the head of the free list, with evictions of HELD records between: what these keep, a
run of them keeps. -/
theorem State.takePages_induct {P : State → Prop} (i : RecIx) (l : PageList)
    (take : ∀ t p rest, P t → t.pool.free = p :: rest → P (t.takeHead i l p rest))
    (evict : ∀ t j, P t → (t.record j).st = .held → P (t.evict j)) (n : Nat) (s : State) (h : P s) :
    P (s.takePages i l n).1 := by
  induction n generalizing s with
  | zero => exact h
  | succ n ih =>
    cases free : s.pool.free with
    | nil => rw [s.takePages_of_empty i l n free]; exact h
    | cons p rest =>
      rw [s.takePages_of_head i l n free]
      exact ih _ (State.lowMarkTest_induct evict 64 _ (take s p rest h free))

/-- What a record that is not HELD looks like after a run of pages: its list has grown by the pages taken. -/
theorem State.takePages_record (i : RecIx) (l : PageList) (n : Nat) (kept : (s.record i).st ≠ .held) :
    ∃ taken, (s.takePages i l n).1.record i = (s.record i).withPages l ((s.record i).pages l ++ taken) ∧
      ((s.takePages i l n).2 = true → taken.length = n) := by
  induction n generalizing s with
  | zero => exact ⟨[], by simp [State.takePages_zero], fun _ => rfl⟩
  | succ n ih =>
    cases free : s.pool.free with
    | nil => exact ⟨[], by simp [s.takePages_of_empty i l n free], by simp [s.takePages_of_empty i l n free]⟩
    | cons p rest =>
      have head : (s.takeHead i l p rest).record i = (s.record i).withPages l ((s.record i).pages l ++ [p]) := by
        rw [State.takeHead_record, if_pos rfl]
      have tested := State.lowMarkTest_record (s.takeHead i l p rest) 64 i (by rw [head]; simpa using kept)
      obtain ⟨taken, record, all⟩ := ih ((s.takeHead i l p rest).lowMarkTest 64) (by rw [tested, head]; simpa using kept)
      rw [s.takePages_of_head i l n free]
      refine ⟨p :: taken, ?_, fun success => by rw [List.length_cons, all success]⟩
      rw [record, tested, head]
      simp

/-! ### Page requests (R82) -/

theorem State.giveBack_record (i : RecIx) (l : PageList) (n : Nat) (j : RecIx) :
    (s.giveBack i l n).record j = if j = i then (s.record i).withPages l (((s.record i).pages l).take n) else s.record j := by
  rw [State.giveBack, State.record_onRec]
  rfl

theorem State.giveBack_pageCount (i : RecIx) (l : PageList) (n p : Nat) :
    pageCount (s.giveBack i l n) p = pageCount s p := by
  refine pageCount_of_moved i p (fun j other => by rw [State.giveBack_record, if_neg other]) ?_
  have lists := (s.record i).pageCount_withPages l (((s.record i).pages l).take n) p
  have parts : ((s.record i).pages l).count p =
      (((s.record i).pages l).take n).count p + (((s.record i).pages l).drop n).count p := by
    rw [← List.count_append, List.take_append_drop]
  have free : (s.giveBack i l n).pool.free = s.pool.free ++ ((s.record i).pages l).drop n := rfl
  rw [State.giveBack_record, if_pos rfl, free, List.count_append]
  omega

theorem State.requestPages_of_limit (i : RecIx) (l : PageList) (n : Nat)
    (h : pageLimit l < ((s.record i).pages l).length + n) : s.requestPages i l n = (s, false) := by
  simp only [State.requestPages, gt_iff_lt, if_pos h]

theorem State.requestPages_of_taken (i : RecIx) (l : PageList) (n : Nat)
    (room : ((s.record i).pages l).length + n ≤ pageLimit l) (h : (s.takePages i l n).2 = true) :
    s.requestPages i l n = s.takePages i l n := by
  simp only [State.requestPages, gt_iff_lt, if_neg (Nat.not_lt.2 room)]
  split
  · rename_i e; exact e.symm
  · rename_i e; rw [e] at h; cases h

theorem State.requestPages_of_short (i : RecIx) (l : PageList) (n : Nat)
    (room : ((s.record i).pages l).length + n ≤ pageLimit l) (h : (s.takePages i l n).2 = false) :
    s.requestPages i l n = ((s.takePages i l n).1.giveBack i l ((s.record i).pages l).length, false) := by
  simp only [State.requestPages, gt_iff_lt, if_neg (Nat.not_lt.2 room)]
  split
  · rename_i e; rw [e] at h; cases h
  · rename_i e; rw [e]

/-- A page request takes pages, and where one is missing gives them back: what both keep, it keeps. -/
theorem State.requestPages_induct {P : State → Prop} (i : RecIx) (l : PageList) (n : Nat) (s : State) (h : P s)
    (take : ∀ t p rest, P t → t.pool.free = p :: rest → P (t.takeHead i l p rest))
    (evict : ∀ t j, P t → (t.record j).st = .held → P (t.evict j)) (giveBack : ∀ t m, P t → P (t.giveBack i l m)) :
    P (s.requestPages i l n).1 := by
  have taken := State.takePages_induct i l take evict n s h
  rcases Nat.lt_or_ge (pageLimit l) (((s.record i).pages l).length + n) with limit | room
  · rw [s.requestPages_of_limit i l n limit]
    exact h
  · cases found : (s.takePages i l n).2 with
    | true => rw [s.requestPages_of_taken i l n room found]; exact taken
    | false => rw [s.requestPages_of_short i l n room found]; exact giveBack _ _ taken

theorem State.requestPages_pageCount (i : RecIx) (l : PageList) (n p : Nat) :
    pageCount (s.requestPages i l n).1 p = pageCount s p :=
  State.requestPages_induct (P := fun t => pageCount t p = pageCount s p) i l n s rfl
    (fun t _ _ same head => (t.takeHead_pageCount i l head p).trans same)
    (fun t j same _ => (t.evict_pageCount j p).trans same) fun t m same => (t.giveBack_pageCount i l m p).trans same

/-- A request that succeeds appends the pages asked for to the list of a record that is not HELD, and changes nothing else in
the record. -/
theorem State.requestPages_record (i : RecIx) (l : PageList) (n : Nat) (kept : (s.record i).st ≠ .held) {t : State}
    (h : s.requestPages i l n = (t, true)) :
    ∃ taken, taken.length = n ∧ t.record i = (s.record i).withPages l ((s.record i).pages l ++ taken) := by
  rcases Nat.lt_or_ge (pageLimit l) (((s.record i).pages l).length + n) with limit | room
  · rw [s.requestPages_of_limit i l n limit] at h
    cases h
  · cases found : (s.takePages i l n).2 with
    | true =>
      obtain ⟨taken, record, all⟩ := s.takePages_record i l n kept
      rw [s.requestPages_of_taken i l n room found] at h
      exact ⟨taken, all found, by rw [← record, h]⟩
    | false =>
      rw [s.requestPages_of_short i l n room found] at h
      cases h

/-- A request that fails leaves a record that is not HELD as it was. -/
theorem State.requestPages_record_of_fail (i : RecIx) (l : PageList) (n : Nat) (kept : (s.record i).st ≠ .held) {t : State}
    (h : s.requestPages i l n = (t, false)) : t.record i = s.record i := by
  rcases Nat.lt_or_ge (pageLimit l) (((s.record i).pages l).length + n) with limit | room
  · rw [s.requestPages_of_limit i l n limit] at h
    cases h
    rfl
  · cases found : (s.takePages i l n).2 with
    | true =>
      rw [s.requestPages_of_taken i l n room found] at h
      exact absurd (congrArg Prod.snd h) (by simp [found])
    | false =>
      obtain ⟨taken, record, _⟩ := s.takePages_record i l n kept
      rw [s.requestPages_of_short i l n room found] at h
      cases h
      rw [State.giveBack_record, if_pos rfl, record]
      simp

end Sys2Proof.Machine
end

section
/-! PROOFS. The statement about pages given back and requested: a request where nothing is evicted, and what an opening
takes (R79 to R86). -/

namespace Sys2Proof.Machine

variable (s : State)

/-! ### A request where nothing is evicted (R82) -/

theorem State.takeHead_st (i : RecIx) (l : PageList) (p : Nat) (rest : List Nat) (j : RecIx) :
    ((s.takeHead i l p rest).record j).st = (s.record j).st := by
  rw [State.takeHead_record]
  split
  · rename_i e
    rw [Record.withPages_st, e]
  · rfl

/-- The low-mark test evicts nothing: the mark is met with `n` pages to spare, or no record is HELD. -/
def State.EvictsNothing (n : Nat) (s : State) : Prop :=
  s.status.cfg.lowMark + n ≤ s.pool.free.length ∨ s.oldestHeld = none

theorem State.EvictsNothing.lowMarkTest {s : State} {n : Nat} (h : s.EvictsNothing n) (fuel : Nat) :
    s.lowMarkTest fuel = s := by
  rcases h with enough | none
  · exact s.lowMarkTest_of_enough fuel (by omega)
  · exact s.lowMarkTest_of_none fuel none

theorem State.EvictsNothing.takeHead {s : State} {n : Nat} (h : s.EvictsNothing (n + 1)) (i : RecIx) (l : PageList)
    {p : Nat} {rest : List Nat} (head : s.pool.free = p :: rest) : (s.takeHead i l p rest).EvictsNothing n := by
  refine h.imp (fun enough => ?_) fun none => ?_
  · rw [head, List.length_cons] at enough
    exact Nat.le_of_succ_le_succ enough
  · rw [State.oldestHeld_eq_none] at none ⊢
    exact fun j => by rw [State.takeHead_st]; exact none j

/-- The first pages of the free list on a list of a record. -/
def State.takeFirst (i : RecIx) (l : PageList) (n : Nat) (s : State) : State :=
  (s.withFree (s.pool.free.drop n)).onRec i fun r => r.withPages l ((s.record i).pages l ++ s.pool.free.take n)

theorem State.takeFirst_zero (i : RecIx) (l : PageList) : s.takeFirst i l 0 = s :=
  State.onRec_of_same _ i (by simp [State.withFree])

theorem State.takeFirst_takeHead (i : RecIx) (l : PageList) (n : Nat) {p : Nat} {rest : List Nat}
    (head : s.pool.free = p :: rest) : (s.takeHead i l p rest).takeFirst i l n = s.takeFirst i l (n + 1) := by
  have record : (s.takeHead i l p rest).record i = (s.record i).withPages l ((s.record i).pages l ++ [p]) := by
    rw [State.takeHead_record, if_pos rfl]
  have lists : (s.record i).pages l ++ [p] ++ rest.take n = (s.record i).pages l ++ (p :: rest).take (n + 1) := by simp
  have twice := State.onRec_onRec (s.withFree (rest.drop n)) i (fun r => r.withPages l (r.pages l ++ [p]))
    fun r => r.withPages l ((s.record i).pages l ++ [p] ++ rest.take n)
  unfold State.takeFirst
  rw [record, Record.pages_withPages, head, ← lists]
  refine Eq.trans ?_ (twice.trans (State.onRec_congr _ i (Record.withPages_withPages _ _ _ _)))
  rfl

/-- With enough pages and nothing to evict, a run of pages is the first pages of the free list. -/
theorem State.takePages_of_enough (i : RecIx) (l : PageList) (n : Nat) (enough : n ≤ s.pool.free.length)
    (quiet : s.EvictsNothing n) : s.takePages i l n = (s.takeFirst i l n, true) := by
  induction n generalizing s with
  | zero => rw [State.takePages_zero, State.takeFirst_zero]
  | succ n ih =>
    cases head : s.pool.free with
    | nil => simp [head] at enough
    | cons p rest =>
      have still := quiet.takeHead i l head
      rw [s.takePages_of_head i l n head, still.lowMarkTest, ih _ (by simpa [head] using enough) still,
        s.takeFirst_takeHead i l n head]

/-- With too few pages and no record HELD, all the free pages are taken and one is missing. -/
theorem State.takePages_of_few (i : RecIx) (l : PageList) (n : Nat) (few : s.pool.free.length < n)
    (none : s.oldestHeld = none) : s.takePages i l n = (s.takeFirst i l s.pool.free.length, false) := by
  induction n generalizing s with
  | zero => simp at few
  | succ n ih =>
    cases head : s.pool.free with
    | nil => rw [s.takePages_of_empty i l n head, List.length_nil, State.takeFirst_zero]
    | cons p rest =>
      have still := State.EvictsNothing.takeHead (n := 0) (.inr none) i l head
      have heldNone := s.oldestHeld_eq_none.1 none
      have none' : (s.takeHead i l p rest).oldestHeld = Option.none :=
        (State.oldestHeld_eq_none _).2 fun j => by rw [State.takeHead_st]; exact heldNone j
      rw [s.takePages_of_head i l n head, still.lowMarkTest, ih _ (by simpa [head] using few) none']
      exact congrArg (·, false) (s.takeFirst_takeHead i l rest.length head)

/-- Giving back all the free pages that were taken leaves the state as it was. -/
theorem State.giveBack_takeFirst (i : RecIx) (l : PageList) :
    (s.takeFirst i l s.pool.free.length).giveBack i l ((s.record i).pages l).length = s := by
  have record : ((s.takeFirst i l s.pool.free.length).record i).pages l = (s.record i).pages l ++ s.pool.free := by
    rw [State.takeFirst, State.record_onRec_same, Record.pages_withPages, List.take_length]
  have free : (s.takeFirst i l s.pool.free.length).pool.free = [] := List.drop_length
  have back := State.onRec_onRec s i (fun r => r.withPages l ((s.record i).pages l ++ s.pool.free.take s.pool.free.length))
    fun r => r.withPages l ((s.record i).pages l)
  have same : s.onRec i (fun r => r.withPages l ((s.record i).pages l)) = s :=
    s.onRec_of_same i (Record.withPages_pages l _)
  simp only [Record.withPages_withPages, same] at back
  unfold State.giveBack
  simp only [record, free, List.drop_left, List.take_left, List.nil_append]
  exact back

/-! ### Openings (R83 to R86) -/

theorem State.findKey_isSome (key : Key) :
    (s.findKey key).isSome = true ↔ ∃ i, (s.record i).st ≠ .free ∧ (s.record i).key = key := by
  simp only [State.findKey, List.find?_isSome, Bool.and_eq_true, bne_iff_ne, beq_iff_eq]
  exact ⟨fun ⟨i, _, h⟩ => ⟨i, h⟩, fun ⟨i, h⟩ => ⟨i, mem_allRecs i, h⟩⟩

theorem State.lowestFree_eq_none : s.lowestFree = none ↔ ∀ i, (s.record i).st ≠ .free := by
  simp only [State.lowestFree, List.find?_eq_none, beq_iff_eq]
  exact ⟨fun h i => h i (mem_allRecs i), fun h i _ => h i⟩

theorem State.openSegment_of_key (c : Port) (key : Key) (h : (s.findKey key).isSome = true) :
    s.openSegment c key = s.overrun 0x02#8 c := by
  simp only [State.openSegment, h, if_true]
  rfl

/-- The record as an opening of a channel sets it up (R85). -/
def State.segmentFor (c : Port) (key : Key) (s : State) : Record :=
  Record.setUp c key (s.chan c).take.segLen (s.chan c).take.twin

theorem State.openSegment_of_free (c : Port) (key : Key) {i : RecIx} (unused : ¬ (s.findKey key).isSome = true)
    (h : s.lowestFree = some i) : s.openSegment c key = s.onRec i fun _ => s.segmentFor c key := by
  simp only [State.openSegment, if_neg unused, h]
  rfl

theorem State.openSegment_of_held (c : Port) (key : Key) {i : RecIx} (unused : ¬ (s.findKey key).isSome = true)
    (full : s.lowestFree = none) (h : s.oldestHeld = some i) :
    s.openSegment c key = (s.evict i).onRec i fun _ => s.segmentFor c key := by
  simp only [State.openSegment, if_neg unused, full, h]
  rfl

theorem State.openSegment_of_full (c : Port) (key : Key) (unused : ¬ (s.findKey key).isSome = true)
    (full : s.lowestFree = none) (h : s.oldestHeld = none) : s.openSegment c key = s.overrun 0x01#8 c := by
  simp only [State.openSegment, if_neg unused, full, h]
  rfl

/-! ### The statement -/

/-- Settles O28: the rules of the pool's operations, one by one. -/
theorem pagesGivenBackAndRequested : Obligations.PagesGivenBackAndRequested := by
  unfold Obligations.PagesGivenBackAndRequested
  refine ⟨fun s i => ?freed, fun s i l n kept => ?request, ⟨rfl, rfl⟩, fun s i l n => ?run, fun s => ?oldest,
    State.evict_eq, fun s c key => ?opening⟩
  case freed =>
    refine ⟨by rw [State.freeRecord_free, List.append_assoc], by rw [State.freeRecord_record, if_pos rfl],
      fun j other => by rw [State.freeRecord_record, if_neg other], s.freeRecord_pageCount i⟩
  case request =>
    refine ⟨fun t success => ?_, fun t failure => ?_, s.requestPages_pageCount i l n, s.requestPages_mem i l n,
      s.requestPages_chans i l n⟩
    · obtain ⟨taken, count, record⟩ := s.requestPages_record i l n kept success
      rw [record, Record.pages_withPages]
      exact ⟨by rw [List.length_append, count], List.prefix_append _ _⟩
    · rw [s.requestPages_record_of_fail i l n kept failure]
  case run =>
    refine ⟨s.requestPages_of_limit i l n, fun room => ⟨s.requestPages_of_taken i l n room,
      s.requestPages_of_short i l n room, fun enough quiet => ?_, fun few none => ?_⟩, s.takePages_zero i l,
      s.takePages_of_empty i l n, fun p rest head => ?_⟩
    · have taken := s.takePages_of_enough i l n enough quiet
      rw [s.requestPages_of_taken i l n room (by rw [taken]), taken]
      rfl
    · have taken := s.takePages_of_few i l n few none
      rw [s.requestPages_of_short i l n room (by rw [taken]), taken]
      exact congrArg (·, false) (s.giveBack_takeFirst i l)
    · rw [s.takePages_of_head i l n head, State.takeHead_eq]
      rfl
  case oldest =>
    refine ⟨s.oldestHeld_eq_none, fun i found => (s.foundOldest.oldest i found).2.imp_right fun older j held other =>
        older j (mem_allRecs j) held other, s.lowMarkTest_of_enough 64, fun i n low found => s.lowMarkTest_succ n low found,
      s.lowMarkTest_meets 64 s.card_heldRecords⟩
  case opening =>
    refine ⟨fun used => s.openSegment_of_key c key ((s.findKey_isSome key).2 used), fun unused => ?_⟩
    have fresh : ¬ (s.findKey key).isSome = true := fun used => by
      obtain ⟨i, inUse⟩ := (s.findKey_isSome key).1 used
      exact unused i inUse
    refine ⟨fun i free below => s.openSegment_of_free c key fresh (s.lowestFree_eq i free below), fun full => ?_⟩
    have none := s.lowestFree_eq_none.2 full
    exact ⟨fun i => s.openSegment_of_held c key fresh none, s.openSegment_of_full c key fresh none⟩

end Sys2Proof.Machine
end

section
/-! PROOFS. The pool in order: what the invariant says of one record, and the four ways in which an operation may change what
it speaks of. A record is replaced, with pages and jobs that balance; a record that moves between states does so at rest; a
request goes out on a tag; or all stays but what the invariant does not read. -/

namespace Sys2Proof.Machine

/-! ### The states of a record -/

/-- OPEN and CLOSING: the states in which a record may have browse jobs pending. -/
def RecState.filling (st : RecState) : Bool := st == .opened || st == .closing

/-- The states of a record in use that stands outside the write queue. -/
def RecState.loose (st : RecState) : Bool := st.filling || st == .deciding || st == .held

/-- The states of a record in the write queue. -/
def RecState.enqueued (st : RecState) : Bool := st == .queued || st == .writing || st == .indexing

theorem RecState.ne_free_of_loose {st : RecState} (h : st.loose = true) : st ≠ .free := fun e => by
  rw [e] at h
  cases h

theorem RecState.loose_of_filling {st : RecState} (h : st.filling = true) : st.loose = true := by simp [RecState.loose, h]

theorem RecState.ne_held_of_filling {st : RecState} (h : st.filling = true) : st ≠ .held := fun e => by
  rw [e] at h
  cases h

theorem RecState.ne_free_of_enqueued {st : RecState} (h : st.enqueued = true) : st ≠ .free := fun e => by
  rw [e] at h
  cases h

theorem RecState.not_enqueued_of_loose {st : RecState} (h : st.loose = true) : ¬ st.enqueued = true := by
  revert h
  cases st <;> decide

theorem RecState.not_filling_of_enqueued {st : RecState} (h : st.enqueued = true) : st.filling = false := by
  revert h
  cases st <;> decide

/-! ### The marks of a record (R140 to R147) -/

/-- A record answers for a request that is out: it is being written, and the request's place is marked issued and is one of its
pages, or its index with every page acknowledged. -/
structure Record.Answers (r : Record) (ref : PageRef) : Prop where
  written : r.st = .writing ∨ r.st = .indexing
  issued : r.progress.mark ref = some .issued
  place : ref ∈ r.pageRefs ∨
    (ref = indexRef ∧ ∀ page ∈ r.pageRefs, r.progress.mark page = some .acknowledged)

theorem Record.Answers.enqueued {r : Record} {ref : PageRef} (h : r.Answers ref) : r.st.enqueued = true := by
  rcases h.written with st | st <;> rw [st] <;> rfl

/-- What of a record the invariant reads. -/
def Record.holdings (r : Record) : RecState × List Nat × List Nat × Nat × Progress :=
  (r.st, r.essPages, r.brwPages, r.pendingJobs, r.progress)

theorem Record.holdings_eq {r r' : Record} (h : r'.holdings = r.holdings) :
    r'.st = r.st ∧ r'.pageRefs = r.pageRefs ∧ r'.pendingJobs = r.pendingJobs ∧ r'.progress = r.progress ∧
      ∀ p, r'.pageCount p = r.pageCount p := by
  simp only [Record.holdings, Prod.mk.injEq] at h
  obtain ⟨st, ess, brw, jobs, progress⟩ := h
  simp only [Record.pageRefs, Record.pageCount, st, ess, brw, jobs, progress, implies_true, and_self]

theorem Record.Answers.of_holdings {r r' : Record} {ref : PageRef} (h : r.Answers ref) (same : r'.holdings = r.holdings) :
    r'.Answers ref := by
  obtain ⟨st, refs, _, progress, _⟩ := Record.holdings_eq same
  exact ⟨by rw [st]; exact h.written, by rw [progress]; exact h.issued, by rw [refs, progress]; exact h.place⟩

/-- The mark of a place in a list of marks is the first that stands for it. -/
theorem Progress.mark_cons (x : PageRef × Mark) (l : List (PageRef × Mark)) (failed : Bool) (ref : PageRef) :
    Progress.mark { marks := x :: l, failed := failed } ref =
      if x.1 = ref then some x.2 else Progress.mark { marks := l, failed := failed } ref := by
  unfold Progress.mark
  by_cases e : x.1 = ref
  · simp [e]
  · simp only [List.find?_cons, beq_eq_false_iff_ne.2 e, if_neg e]

theorem Progress.mark_putMark (ref ref' : PageRef) (m : Mark) (l : List (PageRef × Mark)) (failed : Bool) :
    Progress.mark { marks := putMark ref m l, failed := failed } ref' =
      if ref' = ref then some m else Progress.mark { marks := l, failed := failed } ref' := by
  induction l with
  | nil =>
    rw [putMark, Progress.mark_cons]
    exact if_congr eq_comm rfl rfl
  | cons x l ih =>
    rw [putMark]
    split
    · rename_i head
      rw [Progress.mark_cons, Progress.mark_cons, head]
      by_cases e : ref' = ref
      · simp [e]
      · simp [e, Ne.symm e]
    · rename_i head
      rw [Progress.mark_cons, Progress.mark_cons, ih]
      by_cases e : ref' = ref
      · simp [e, head]
      · simp [e]

theorem Record.mark_setMark (ref ref' : PageRef) (m : Mark) (r : Record) :
    (r.setMark ref m).progress.mark ref' = if ref' = ref then some m else r.progress.mark ref' :=
  Progress.mark_putMark ref ref' m r.progress.marks r.progress.failed

/-- Dropping the unwritten marks leaves a place that has another mark with that mark. -/
theorem Progress.mark_filter (l : List (PageRef × Mark)) (failed failed' : Bool) (ref : PageRef) {m : Mark}
    (kept : m ≠ .unwritten) (h : Progress.mark { marks := l, failed := failed } ref = some m) :
    Progress.mark { marks := l.filter fun x => x.2 != .unwritten, failed := failed' } ref = some m := by
  induction l with
  | nil => cases h
  | cons x l ih =>
    rw [Progress.mark_cons] at h
    by_cases e : x.1 = ref
    · rw [if_pos e] at h
      cases h
      rw [List.filter_cons_of_pos (by simpa using kept), Progress.mark_cons, if_pos e]
    · rw [if_neg e] at h
      rw [List.filter_cons]
      split
      · rw [Progress.mark_cons, if_neg e]
        exact ih h
      · exact ih h

/-- Failing a record drops unwritten marks alone (R147). -/
theorem Record.mark_fail (r : Record) (ref : PageRef) {m : Mark} (kept : m ≠ .unwritten)
    (h : r.progress.mark ref = some m) : r.fail.progress.mark ref = some m :=
  Progress.mark_filter r.progress.marks r.progress.failed true ref kept h

/-- Marking a place leaves a record that answers for another place doing so, if it takes no acknowledgement back. -/
theorem Record.Answers.setMark {r : Record} {ref : PageRef} (h : r.Answers ref) (at' : PageRef) (m : Mark)
    (other : ref ≠ at') (keeps : m = .acknowledged ∨ r.progress.mark at' ≠ some .acknowledged)
    {st : RecState} (written : st = .writing ∨ st = .indexing) :
    ({ r.setMark at' m with st := st } : Record).Answers ref where
  written := written
  issued := by
    change (r.setMark at' m).progress.mark ref = some .issued
    rw [Record.mark_setMark, if_neg other]
    exact h.issued
  place := h.place.imp_right fun ⟨index, all⟩ => ⟨index, fun page mem => by
    change (r.setMark at' m).progress.mark page = some .acknowledged
    rw [Record.mark_setMark]
    split
    · rename_i e
      rw [keeps.resolve_right fun none => none (e ▸ all page mem)]
    · exact all page mem⟩

/-- A place that has been issued and not acknowledged is not the one that an outstanding index rests on. -/
theorem Record.Answers.not_acknowledged {r : Record} {ref : PageRef} (h : r.Answers ref) :
    r.progress.mark ref ≠ some .acknowledged := by simp [h.issued]

theorem Record.Answers.fail {r : Record} {ref : PageRef} (h : r.Answers ref) : r.fail.Answers ref where
  written := h.written
  issued := r.mark_fail ref nofun h.issued
  place := h.place.imp_right fun ⟨index, all⟩ => ⟨index, fun page mem => r.mark_fail page nofun (all page mem)⟩

/-! ### The invariant, record by record -/

/-- The jobs of a record that are not withdrawn. -/
def jobsOf (i : RecIx) (jobs : List Job) : Nat := (jobs.filter (Job.pendingFor i)).length

variable {s t : State}

theorem PoolInOrder.pages (h : PoolInOrder s) : EachPageOnce s := h.1
theorem PoolInOrder.cleared (h : PoolInOrder s) : FreeRecordsCleared s := h.2.1

theorem PoolInOrder.jobs (h : PoolInOrder s) (i : RecIx) : (s.record i).pendingJobs = jobsOf i s.browse.jobs :=
  (h.2.2.1 i).1

theorem PoolInOrder.idle (h : PoolInOrder s) {i : RecIx} (st : (s.record i).st.filling = false) :
    (s.record i).pendingJobs = 0 := by
  simp only [RecState.filling, Bool.or_eq_false_iff, beq_eq_false_iff_ne] at st
  exact (h.2.2.1 i).2 st.1 st.2

theorem PoolInOrder.filling (h : PoolInOrder s) {i : RecIx} (busy : (s.record i).pendingJobs ≠ 0) :
    (s.record i).st.filling = true := by
  by_contra st
  exact busy (h.idle (by simpa using st))

theorem enqueued_iff (r : Record) : r.st.enqueued = true ↔ r.st = .queued ∨ r.st = .writing ∨ r.st = .indexing := by
  simp [RecState.enqueued, or_assoc]

theorem PoolInOrder.enqueued (h : PoolInOrder s) {i : RecIx} (queued : i ∈ s.link.queue) :
    (s.record i).st.enqueued = true := (enqueued_iff _).2 (h.2.2.2.1 i queued)

theorem PoolInOrder.answers (h : PoolInOrder s) {k : TagIx} {q : TagRequest} {timer : Timer}
    (out : s.tag k = .outstanding q timer) : (s.record q.record).Answers q.ref := by
  obtain ⟨written, issued, place, _⟩ := h.2.2.2.2 k q timer out
  exact ⟨written, issued, place⟩

theorem PoolInOrder.alone (h : PoolInOrder s) {k : TagIx} {q : TagRequest} {timer : Timer}
    (out : s.tag k = .outstanding q timer) {k' : TagIx} {timer' : Timer} (out' : s.tag k' = .outstanding q timer') :
    k' = k := (h.2.2.2.2 k q timer out).2.2.2 k' timer' out'

/-- The invariant from its parts. -/
theorem PoolInOrder.mk (pages : EachPageOnce s) (cleared : FreeRecordsCleared s)
    (jobs : ∀ i, (s.record i).pendingJobs = jobsOf i s.browse.jobs)
    (idle : ∀ i, (s.record i).st.filling = false → (s.record i).pendingJobs = 0)
    (queue : ∀ i ∈ s.link.queue, (s.record i).st.enqueued = true)
    (answers : ∀ k q timer, s.tag k = .outstanding q timer → (s.record q.record).Answers q.ref)
    (alone : ∀ k k' q timer timer', s.tag k = .outstanding q timer → s.tag k' = .outstanding q timer' → k' = k) :
    PoolInOrder s := by
  refine ⟨pages, cleared, fun i => ⟨jobs i, fun open' closing => idle i ?_⟩, fun i queued => ?_, fun k q timer out => ?_⟩
  · simp [RecState.filling, open', closing]
  · exact (enqueued_iff _).1 (queue i queued)
  · have h := answers k q timer out
    exact ⟨h.written, h.issued, h.place, fun k' timer' out' => alone k k' q timer timer' out out'⟩

/-- A record outside the write queue is not in it. -/
theorem PoolInOrder.not_mem_queue (h : PoolInOrder s) {i : RecIx} (loose : (s.record i).st.loose = true) :
    i ∉ s.link.queue := fun queued => RecState.not_enqueued_of_loose loose (h.enqueued queued)

/-- No request of a record outside the write queue is out. -/
theorem PoolInOrder.no_tag (h : PoolInOrder s) {i : RecIx} (loose : (s.record i).st.loose = true) {k : TagIx}
    {q : TagRequest} {timer : Timer} (out : s.tag k = .outstanding q timer) : q.record ≠ i := fun e =>
  RecState.not_enqueued_of_loose loose (e ▸ (h.answers out).enqueued)

/-! ### What an operation may do -/

/-- What the invariant does not read may change, timers may count, records may leave or join the write queue, and requests may
be answered. -/
theorem PoolInOrder.of_alike (h : PoolInOrder s) (free : t.pool.free = s.pool.free)
    (jobs : t.browse.jobs = s.browse.jobs) (records : ∀ i, (t.record i).holdings = (s.record i).holdings)
    (cleared : ∀ i, (s.record i).st = .free → t.record i = Record.cleared)
    (queue : ∀ i ∈ t.link.queue, i ∈ s.link.queue ∨ (s.record i).st.enqueued = true)
    (tags : ∀ k q timer, t.tag k = .outstanding q timer → ∃ timer', s.tag k = .outstanding q timer') :
    PoolInOrder t := by
  refine .mk (fun p => ?_) (fun i freed => ?_) (fun i => ?_) (fun i st => ?_) (fun i queued => ?_)
    (fun k q timer out => ?_) fun k k' q timer timer' out out' => ?_
  · rw [← h.pages p, pageCount, pageCount, free]
    exact congrArg _ (Finset.sum_congr rfl fun i _ => (Record.holdings_eq (records i)).2.2.2.2 p)
  · exact cleared i ((Record.holdings_eq (records i)).1 ▸ freed)
  · rw [(Record.holdings_eq (records i)).2.2.1, jobs, h.jobs]
  · obtain ⟨same, _, pending, _⟩ := Record.holdings_eq (records i)
    rw [pending]
    exact h.idle (same ▸ st)
  · rw [(Record.holdings_eq (records i)).1]
    exact (queue i queued).elim h.enqueued id
  · obtain ⟨timer', before⟩ := tags k q timer out
    exact (h.answers before).of_holdings (records _)
  · obtain ⟨before, o⟩ := tags k q timer out
    obtain ⟨before', o'⟩ := tags k' q timer' out'
    exact h.alone o o'

/-- What of the state the invariant and staging memory read. -/
def State.stock (s : State) : Memory × List Nat × Vector Record 64 × List Job × List RecIx × Vector TagState 16 :=
  (s.mem, s.pool.free, s.pool.records, s.browse.jobs, s.link.queue, s.link.tags)

theorem PoolInOrder.of_stock (h : PoolInOrder s) (same : t.stock = s.stock) : PoolInOrder t := by
  simp only [State.stock, Prod.mk.injEq] at same
  obtain ⟨_, free, records, jobs, queue, tags⟩ := same
  have record (i : RecIx) : t.record i = s.record i := congrArg (·.get i) records
  have tag (k : TagIx) : t.tag k = s.tag k := congrArg (·.get k) tags
  exact h.of_alike free jobs (fun i => by rw [record]) (fun i st => by rw [record, h.cleared i st])
    (fun i queued => .inl (queue ▸ queued)) fun k q timer out => ⟨timer, tag k ▸ out⟩

/-- The state with one record, the free list and the job queue replaced. -/
def State.put (i : RecIx) (r : Record) (free : List Nat) (jobs : List Job) (s : State) : State :=
  { s with
    pool := { s.pool with records := s.pool.records.set i r, free := free }, browse := { s.browse with jobs := jobs } }

theorem State.put_record (s : State) (i : RecIx) (r : Record) (free : List Nat) (jobs : List Job) (j : RecIx) :
    (s.put i r free jobs).record j = if j = i then r else s.record j := vector_get_set _ _ _ _

/-- A record is replaced: its pages balance with the free list and its pending jobs with the job queue, it stays in the write
queue if it is there, and it answers for the requests that are out. -/
theorem PoolInOrder.put (h : PoolInOrder s) (i : RecIx) (r : Record) (free : List Nat) (jobs : List Job)
    (pages : ∀ p, free.count p + r.pageCount p = s.pool.free.count p + (s.record i).pageCount p)
    (cleared : r.st = .free → r = Record.cleared) (mine : r.pendingJobs = jobsOf i jobs)
    (others : ∀ j, j ≠ i → jobsOf j jobs = jobsOf j s.browse.jobs) (idle : r.st.filling = false → r.pendingJobs = 0)
    (queue : i ∈ s.link.queue → r.st.enqueued = true)
    (answers : ∀ k q timer, s.tag k = .outstanding q timer → q.record = i → r.Answers q.ref) :
    PoolInOrder (s.put i r free jobs) := by
  have self : (s.put i r free jobs).record i = r := by rw [State.put_record, if_pos rfl]
  have other {j : RecIx} (ne : j ≠ i) : (s.put i r free jobs).record j = s.record j := by rw [State.put_record, if_neg ne]
  refine .mk (fun p => ?_) (fun j => ?_) (fun j => ?_) (fun j => ?_) (fun j queued => ?_) (fun k q timer out => ?_)
    fun k k' q timer timer' out out' => h.alone (s := s) out out'
  · rw [← h.pages p]
    exact pageCount_of_moved i p (fun j => other) (by rw [self]; exact pages p)
  · by_cases e : j = i
    · rw [e, self]; exact cleared
    · rw [other e]; exact h.cleared j
  · by_cases e : j = i
    · rw [e, self]; exact mine
    · rw [other e, h.jobs]; exact (others j e).symm
  · by_cases e : j = i
    · rw [e, self]; exact idle
    · rw [other e]; exact h.idle
  · by_cases e : j = i
    · rw [e, self]; exact queue (e ▸ queued)
    · rw [other e]; exact h.enqueued queued
  · by_cases e : q.record = i
    · rw [e, self]; exact answers k q timer out e
    · rw [other e]; exact h.answers (s := s) out

/-- A request goes out on a tag: its record answers for it, and no other tag stands for its place. -/
theorem PoolInOrder.sendOn (h : PoolInOrder s) (k : TagIx) (q : TagRequest) (timer : Timer)
    (answers : (s.record q.record).Answers q.ref) (alone : ∀ k' timer', s.tag k' ≠ .outstanding q timer') :
    PoolInOrder (s.setTag k (.outstanding q timer)) := by
  have out {k' : TagIx} {q' : TagRequest} {timer' : Timer}
      (o : (s.setTag k (.outstanding q timer)).tag k' = .outstanding q' timer') :
      (k' = k ∧ q' = q) ∨ s.tag k' = .outstanding q' timer' := by
    rw [State.tag_setTag] at o
    split at o
    · rename_i e
      cases o
      exact .inl ⟨e, rfl⟩
    · exact .inr o
  refine .mk h.pages h.cleared h.jobs (fun i => h.idle) (fun i => h.enqueued) (fun k' q' timer' o => ?_)
    fun k' k'' q' timer' timer'' o o' => ?_
  · rw [State.setTag_record]
    rcases out o with ⟨_, rfl⟩ | before
    · exact answers
    · exact h.answers before
  · rcases out o with ⟨first, rfl⟩ | before <;> rcases out o' with ⟨second, e⟩ | before'
    · rw [first, second]
    · exact absurd before' (alone _ _)
    · exact absurd (e ▸ before) (alone _ _)
    · exact h.alone before before'

/-! ### Updates of one record -/

/-- A record in use keeps what the invariant reads of it. -/
theorem PoolInOrder.onRec_alike (h : PoolInOrder s) (i : RecIx) (f : Record → Record) (used : (s.record i).st ≠ .free)
    (same : (f (s.record i)).holdings = (s.record i).holdings) : PoolInOrder (s.onRec i f) := by
  refine h.of_alike rfl rfl (fun j => ?_) (fun j freed => ?_) (fun j queued => .inl queued)
    fun k q timer out => ⟨timer, by rwa [State.onRec_tag] at out⟩
  · rw [State.record_onRec]
    split
    · rename_i e; rw [e]; exact same
    · rfl
  · have e : j ≠ i := fun e => used (e ▸ freed)
    rw [State.record_onRec_other _ _ e, h.cleared j freed]

/-- A record is at rest: it stands outside the write queue, and while it is OPEN or CLOSING no browse job of it is pending. -/
structure Record.AtRest (r : Record) : Prop where
  loose : r.st.loose = true
  noJobs : r.st.filling = true → r.pendingJobs = 0

theorem Record.AtRest.of_held {r : Record} (h : r.st = .held) : r.AtRest := ⟨by rw [h]; rfl, by rw [h]; exact nofun⟩
theorem Record.AtRest.of_deciding {r : Record} (h : r.st = .deciding) : r.AtRest :=
  ⟨by rw [h]; rfl, by rw [h]; exact nofun⟩

theorem Record.AtRest.of_holdings {r r' : Record} (h : r.AtRest) (same : r'.holdings = r.holdings) : r'.AtRest := by
  obtain ⟨st, _, jobs, _⟩ := Record.holdings_eq same
  exact ⟨st ▸ h.loose, fun filling => jobs.trans (h.noJobs (st ▸ filling))⟩

theorem PoolInOrder.noJobs (h : PoolInOrder s) {i : RecIx} (rest : (s.record i).AtRest) : (s.record i).pendingJobs = 0 := by
  by_cases filling : (s.record i).st.filling = true
  · exact rest.noJobs filling
  · exact h.idle (by simpa using filling)

/-- A record that stands outside the write queue keeps its pages and its jobs, and has none of these left if it is no longer
OPEN or CLOSING. -/
theorem PoolInOrder.onRec_loose (h : PoolInOrder s) (i : RecIx) (f : Record → Record)
    (loose : (s.record i).st.loose = true) (used : (f (s.record i)).st ≠ .free)
    (pages : ∀ p, (f (s.record i)).pageCount p = (s.record i).pageCount p)
    (jobs : (f (s.record i)).pendingJobs = (s.record i).pendingJobs)
    (idle : (f (s.record i)).st.filling = false → (s.record i).pendingJobs = 0) : PoolInOrder (s.onRec i f) :=
  h.put i (f (s.record i)) s.pool.free s.browse.jobs (fun p => by rw [pages]) (fun e => absurd e used)
    (jobs.trans (h.jobs i)) (fun _ _ => rfl) (fun st => jobs.trans (idle st))
    (fun queued => absurd queued (h.not_mem_queue loose)) fun k q timer out mine => absurd mine (h.no_tag loose out)

/-- A record that holds nothing that is out or waiting is freed (R79). -/
theorem PoolInOrder.freeRecord (h : PoolInOrder s) (i : RecIx) (noJobs : (s.record i).pendingJobs = 0)
    (left : i ∉ s.link.queue) (noTag : ∀ k q timer, s.tag k = .outstanding q timer → q.record ≠ i) :
    PoolInOrder (s.freeRecord i) := by
  refine h.put i Record.cleared (s.pool.free ++ (s.record i).essPages ++ (s.record i).brwPages) s.browse.jobs
    (fun p => ?_) (fun _ => rfl) ?_ (fun _ _ => rfl) (fun _ => rfl) (fun queued => absurd queued left)
    fun k q timer out mine => absurd mine (noTag k q timer out)
  · simp only [Record.pageCount, Record.cleared, List.count_append, List.count_nil]
    omega
  · rw [← h.jobs i, noJobs]
    rfl

theorem PoolInOrder.freeRecord_atRest (h : PoolInOrder s) (i : RecIx) (rest : (s.record i).AtRest) :
    PoolInOrder (s.freeRecord i) :=
  h.freeRecord i (h.noJobs rest) (h.not_mem_queue rest.loose) fun _ _ _ => h.no_tag rest.loose

/-- A FREE record is set up for a segment (R85). -/
theorem PoolInOrder.setUp (h : PoolInOrder s) (i : RecIx) (free : (s.record i).st = .free) (c : Port) (key : Key)
    (segLen : Nat) (twin : Bool) : PoolInOrder (s.onRec i fun _ => Record.setUp c key segLen twin) := by
  have blank := h.cleared i free
  refine h.put i (Record.setUp c key segLen twin) s.pool.free s.browse.jobs (fun p => by rw [blank]; rfl) nofun ?_
    (fun _ _ => rfl) (fun _ => rfl) (fun queued => ?_) fun k q timer out mine => ?_
  · rw [← h.jobs i, blank]
    rfl
  · exact absurd free (RecState.ne_free_of_enqueued (h.enqueued queued))
  · exact absurd free (RecState.ne_free_of_enqueued (mine ▸ (h.answers out).enqueued))

/-! ### Pages that move (R82) -/

/-- Pages move between the free list and a list of a record that stands outside the write queue. -/
theorem PoolInOrder.movePages (h : PoolInOrder s) (i : RecIx) (l : PageList) (free pages : List Nat)
    (loose : (s.record i).st.loose = true)
    (balance : ∀ p, free.count p + pages.count p = s.pool.free.count p + ((s.record i).pages l).count p) :
    PoolInOrder ((s.withFree free).onRec i fun r => r.withPages l pages) := by
  refine h.put i ((s.record i).withPages l pages) free s.browse.jobs (fun p => ?_) (fun e => ?_) ?_ (fun _ _ => rfl)
    (fun st => ?_) (fun queued => absurd queued (h.not_mem_queue loose))
    fun k q timer out mine => absurd mine (h.no_tag loose out)
  · have lists := (s.record i).pageCount_withPages l pages p
    have moved := balance p
    omega
  · rw [Record.withPages_st] at e
    exact absurd e (RecState.ne_free_of_loose loose)
  · rw [Record.withPages_pendingJobs, h.jobs]
  · rw [Record.withPages_st] at st
    rw [Record.withPages_pendingJobs, h.idle st]

theorem PoolInOrder.takeHead (h : PoolInOrder s) (i : RecIx) (l : PageList) {p : Nat} {rest : List Nat}
    (loose : (s.record i).st.loose = true) (head : s.pool.free = p :: rest) :
    PoolInOrder (s.takeHead i l p rest) := by
  rw [State.takeHead_eq]
  refine h.movePages i l rest _ loose fun q => ?_
  rw [head]
  simp only [List.count_append, List.count_cons, List.count_nil]
  omega

theorem PoolInOrder.giveBack (h : PoolInOrder s) (i : RecIx) (l : PageList) (n : Nat)
    (loose : (s.record i).st.loose = true) : PoolInOrder (s.giveBack i l n) :=
  h.movePages i l (s.pool.free ++ ((s.record i).pages l).drop n) (((s.record i).pages l).take n) loose fun p => by
    have parts := congrArg (List.count p) (List.take_append_drop n ((s.record i).pages l))
    rw [List.count_append] at parts ⊢
    omega

theorem PoolInOrder.evict (h : PoolInOrder s) (i : RecIx) (held : (s.record i).st = .held) : PoolInOrder (s.evict i) := by
  refine (h.freeRecord_atRest i (.of_held held)).of_stock ?_
  rw [State.evict_eq]
  simp [State.stock]

/-- A request for pages of an OPEN or CLOSING record. -/
theorem PoolInOrder.requestPages (h : PoolInOrder s) (i : RecIx) (l : PageList) (n : Nat)
    (filling : (s.record i).st.filling = true) : PoolInOrder (s.requestPages i l n).1 := by
  have loose {u : State} (st : (u.record i).st.filling = true) := RecState.loose_of_filling st
  refine (State.requestPages_induct (P := fun u => PoolInOrder u ∧ (u.record i).st.filling = true) i l n s ⟨h, filling⟩
    (fun u p rest hu head => ⟨hu.1.takeHead i l (loose hu.2) head, by rw [State.takeHead_st]; exact hu.2⟩)
    (fun u j hu held => ⟨hu.1.evict j held, ?_⟩)
    fun u m hu => ⟨hu.1.giveBack i l m (loose hu.2), by rw [State.giveBack_record]; simpa using hu.2⟩).1
  have other : i ≠ j := fun e => RecState.ne_held_of_filling hu.2 (e ▸ held)
  rw [State.evict_record, if_neg other]
  exact hu.2

end Sys2Proof.Machine
end

section
/-! PROOFS. What the shared operations do to staging memory and to the pool in order: those of the store link, the segments,
the Browse Unit and copy arbitration. `Quiet` operations leave staging memory as it is; `Sound` ones keep its canonical form.
An operation on a record states in which states of the record it is made. -/

namespace Sys2Proof.Machine

/-- An operation that leaves staging memory as it is and keeps the pool in order. -/
structure Quiet (s t : State) : Prop where
  mem : t.mem = s.mem
  pool : PoolInOrder s → PoolInOrder t

/-- An operation that keeps the canonical form of staging memory and the pool in order. -/
structure Sound (s t : State) : Prop where
  mem : s.mem.wf = true → t.mem.wf = true
  pool : PoolInOrder s → PoolInOrder t

theorem Quiet.refl (s : State) : Quiet s s := ⟨rfl, id⟩

theorem Quiet.trans {s t u : State} (h : Quiet s t) (k : Quiet t u) : Quiet s u := ⟨k.mem.trans h.mem, k.pool ∘ h.pool⟩

theorem Quiet.after {s t u : State} (k : Quiet t u) (h : Quiet s t) : Quiet s u := h.trans k

/-- What neither staging memory nor the invariant reads may change. -/
theorem Quiet.of_stock {s t : State} (same : t.stock = s.stock) : Quiet s t :=
  ⟨congrArg Prod.fst same, fun h => h.of_stock same⟩

theorem Quiet.of_same {s t u : State} (k : Quiet t u) (same : t.stock = s.stock) : Quiet s u := (Quiet.of_stock same).trans k

theorem Quiet.ite {s t u : State} {p : Prop} [Decidable p] (h : p → Quiet s t) (k : ¬ p → Quiet s u) :
    Quiet s (if p then t else u) := by
  split
  · exact h ‹_›
  · exact k ‹_›

theorem Quiet.either {s t u : State} {p : Prop} [Decidable p] (h : Quiet s t) (k : Quiet s u) :
    Quiet s (if p then t else u) := .ite (fun _ => h) fun _ => k

theorem Quiet.foldl {α : Type} {f : State → α → State} (h : ∀ s a, Quiet s (f s a)) (l : List α) (s : State) :
    Quiet s (l.foldl f s) := by
  induction l generalizing s with
  | nil => exact .refl s
  | cons a l ih => exact (h s a).trans (ih _)

theorem Quiet.sound {s t : State} (h : Quiet s t) : Sound s t := ⟨fun wf => h.mem ▸ wf, h.pool⟩

theorem Sound.refl (s : State) : Sound s s := ⟨id, id⟩

theorem Sound.trans {s t u : State} (h : Sound s t) (k : Sound t u) : Sound s u := ⟨k.mem ∘ h.mem, k.pool ∘ h.pool⟩

theorem Sound.after {s t u : State} (k : Sound t u) (h : Sound s t) : Sound s u := h.trans k

theorem Sound.ite {s t u : State} {p : Prop} [Decidable p] (h : p → Sound s t) (k : ¬ p → Sound s u) :
    Sound s (if p then t else u) := by
  split
  · exact h ‹_›
  · exact k ‹_›

theorem Sound.either {s t u : State} {p : Prop} [Decidable p] (h : Sound s t) (k : Sound s u) :
    Sound s (if p then t else u) := .ite (fun _ => h) fun _ => k

theorem Sound.foldl {α : Type} {f : State → α → State} (h : ∀ s a, Sound s (f s a)) (l : List α) (s : State) :
    Sound s (l.foldl f s) := by
  induction l generalizing s with
  | nil => exact (Quiet.refl s).sound
  | cons a l ih => exact (h s a).trans (ih _)

variable (s : State)

/-! ### Channels, messages and records -/

theorem State.setChan_quiet (c : Port) (x : Channel) : Quiet s (s.setChan c x) := .of_stock rfl
theorem State.onPort_quiet (c : Port) (f : FeedPort → FeedPort) : Quiet s (s.onPort c f) := .of_stock rfl
theorem State.onSync_quiet (c : Port) (f : Synchroniser → Synchroniser) : Quiet s (s.onSync c f) := .of_stock rfl
theorem State.onTake_quiet (c : Port) (f : TakeController → TakeController) : Quiet s (s.onTake c f) := .of_stock rfl
theorem State.onSel_quiet (c : Port) (f : Selector → Selector) : Quiet s (s.onSel c f) := .of_stock rfl
theorem State.transmit_quiet (m : Message) : Quiet s (s.transmit m) := .of_stock rfl
theorem State.retally_quiet (c : Port) : Quiet s (s.retally c) := .either (.refl s) (s.onPort_quiet c _)

theorem State.notice_quiet (k : Cause) (r c : Byte) (n : HouseCount) : Quiet s (s.notice k r c n) :=
  .of_stock (by simp [State.stock])

theorem State.engineNotice_quiet (k : Cause) (r : Byte) : Quiet s (s.engineNotice k r) := s.notice_quiet _ _ _ _
theorem State.channelNotice_quiet (k : Cause) (r : Byte) (c : Port) : Quiet s (s.channelNotice k r c) :=
  s.notice_quiet _ _ _ _

/-- A record in use keeps what the invariant reads of it. -/
theorem State.onRec_quiet (i : RecIx) (f : Record → Record) (used : (s.record i).st ≠ .free)
    (same : (f (s.record i)).holdings = (s.record i).holdings) : Quiet s (s.onRec i f) :=
  ⟨rfl, fun h => h.onRec_alike i f used same⟩

/-- A record at rest moves to another state in use outside the write queue. -/
theorem State.onRec_atRest_quiet (i : RecIx) (f : Record → Record) (rest : (s.record i).AtRest)
    (used : (f (s.record i)).st ≠ .free) (pages : ∀ p, (f (s.record i)).pageCount p = (s.record i).pageCount p)
    (jobs : (f (s.record i)).pendingJobs = (s.record i).pendingJobs) : Quiet s (s.onRec i f) :=
  ⟨rfl, fun h => h.onRec_loose i f rest.loose used pages jobs fun _ => h.noJobs rest⟩

theorem State.freeRecord_quiet (i : RecIx) (rest : (s.record i).AtRest) : Quiet s (s.freeRecord i) :=
  ⟨rfl, fun h => h.freeRecord_atRest i rest⟩

theorem State.evict_quiet (i : RecIx) (held : (s.record i).st = .held) : Quiet s (s.evict i) :=
  ⟨s.evict_mem i, fun h => h.evict i held⟩

/-! ### Issuing (R140 to R142) -/

/-- A record has a request to issue: the place is not issued, or came back unwritten, and is one of its pages, or its index
with every page acknowledged. -/
structure Record.Due (r : Record) (ref : PageRef) : Prop where
  unissued : r.progress.mark ref = none ∨ r.progress.mark ref = some .unwritten
  place : ref ∈ r.pageRefs ∨ (ref = indexRef ∧ ∀ page ∈ r.pageRefs, r.progress.mark page = some .acknowledged)

theorem Record.due_of_indexDue {r : Record} (h : r.indexDue = true) : r.Due indexRef := by
  simp only [Record.indexDue, Bool.and_eq_true, List.all_eq_true, Bool.or_eq_true, beq_iff_eq] at h
  obtain ⟨⟨_, all⟩, unissued⟩ := h
  exact ⟨unissued, .inr ⟨rfl, all⟩⟩

theorem Record.due_of_unwrittenPage {r : Record} {ref : PageRef} (h : r.unwrittenPage = some ref) : r.Due ref := by
  unfold Record.unwrittenPage at h
  split at h
  · cases h
  · exact ⟨.inr (by simpa using List.find?_some h), .inl (List.mem_of_find?_eq_some h)⟩

theorem Record.due_of_nextPage {r : Record} {ref : PageRef} (h : r.nextPage = some ref) : r.Due ref := by
  unfold Record.nextPage at h
  split at h
  · cases h
  · exact ⟨.inl (by simpa using List.find?_some h), .inl (List.mem_of_find?_eq_some h)⟩

/-- The request that is chosen is due, and its record stands in the write queue (R140). -/
theorem State.chooseRequest_some {i : RecIx} {ref : PageRef} (h : s.chooseRequest = some (i, ref)) :
    i ∈ s.link.queue ∧ (s.record i).Due ref := by
  simp only [State.chooseRequest, Option.or_eq_some_iff, Option.map_eq_some_iff, Prod.mk.injEq] at h
  have page {f : Record → Option PageRef}
      (h : (s.link.queue.findSome? fun i => (f (s.record i)).map fun ref => (i, ref)) = some (i, ref)) :
      i ∈ s.link.queue ∧ f (s.record i) = some ref := by
    obtain ⟨j, queued, found⟩ := List.exists_of_findSome?_eq_some h
    obtain ⟨ref', found, e⟩ := Option.map_eq_some_iff.1 found
    cases e
    exact ⟨queued, found⟩
  rcases h with ⟨j, found, rfl, rfl⟩ | ⟨_, unwritten | ⟨_, next⟩⟩
  · exact ⟨List.mem_of_find?_eq_some found, Record.due_of_indexDue (List.find?_some (p := fun i => (s.record i).indexDue) found)⟩
  · exact (page unwritten).imp_right Record.due_of_unwrittenPage
  · exact (page next).imp_right Record.due_of_nextPage

theorem issuedState_written {st : RecState} (h : st.enqueued = true) (ref : PageRef) :
    issuedState st ref = .writing ∨ issuedState st ref = .indexing := by
  unfold issuedState
  split
  · exact .inr rfl
  · revert h
    cases st <;> decide

/-- Issuing a request that is due keeps the pool in order: no tag stands for its place yet. -/
theorem State.issueOne_quiet (k : TagIx) (i : RecIx) (ref : PageRef) (queued : i ∈ s.link.queue)
    (due : (s.record i).Due ref) : Quiet s (s.issueOne k i ref) := by
  refine ⟨rfl, fun h => ?_⟩
  have enqueued := h.enqueued queued
  have written := issuedState_written enqueued ref
  have filling : (issuedState (s.record i).st ref).filling = false := by
    rcases written with st | st <;> rw [st] <;> rfl
  have elsewhere {k' : TagIx} {q : TagRequest} {timer : Timer} (out : s.tag k' = .outstanding q timer)
      (mine : q.record = i) : q.ref ≠ ref := fun e => by
    have issued := (h.answers out).issued
    rw [mine, e] at issued
    rcases due.unissued with mark | mark <;> rw [mark] at issued <;> cases issued
  have marked : PoolInOrder (s.onRec i fun r => { r.setMark ref .issued with st := issuedState r.st ref }) :=
    h.put i { (s.record i).setMark ref .issued with st := issuedState (s.record i).st ref } s.pool.free s.browse.jobs
      (fun _ => rfl) (fun e => by rcases written with st | st <;> exact absurd (st.symm.trans e) nofun) (h.jobs i)
      (fun _ _ => rfl) (fun _ => h.idle (RecState.not_filling_of_enqueued enqueued))
      (fun _ => (enqueued_iff _).2 (.inr written))
      fun k' q timer out mine => by
        have before : (s.record i).Answers q.ref := mine ▸ h.answers out
        exact before.setMark ref .issued (elsewhere out mine)
          (.inr (by rcases due.unissued with mark | mark <;> rw [mark] <;> exact nofun)) written
  refine (marked.sendOn k { record := i, ref := ref } (some s.status.cfg.swt) ?_ fun k' timer' out => ?_).of_stock rfl
  · rw [State.record_onRec_same]
    refine ⟨written, ?_, due.place.imp_right fun ⟨index, all⟩ => ⟨index, fun page mem => ?_⟩⟩
    · change ((s.record i).setMark ref .issued).progress.mark ref = some .issued
      rw [Record.mark_setMark, if_pos rfl]
    · change ((s.record i).setMark ref .issued).progress.mark page = some .acknowledged
      have other : page ≠ ref := fun e => by
        have acknowledged := all page mem
        rw [e] at acknowledged
        rcases due.unissued with mark | mark <;> rw [mark] at acknowledged <;> cases acknowledged
      rw [Record.mark_setMark, if_neg other]
      exact all page mem
  · rw [State.onRec_tag] at out
    exact elsewhere out rfl rfl

theorem State.issueUpTo_quiet (fuel : Nat) : Quiet s (s.issueUpTo fuel) := by
  induction fuel generalizing s with
  | zero => exact .refl s
  | succ n ih =>
    unfold State.issueUpTo
    split
    · split
      · rename_i k i ref _ chosen
        obtain ⟨queued, due⟩ := s.chooseRequest_some chosen
        exact (s.issueOne_quiet k i ref queued due).trans (ih _)
      · exact .refl s
    · exact .refl s

theorem State.issue_quiet : Quiet s s.issue := .ite (fun _ => .refl s) fun _ => s.issueUpTo_quiet 16

/-! ### The write queue (R139) -/

/-- A record becomes QUEUED at the tail of the write queue, before anything is issued. -/
def State.enqueue (i : RecIx) (s : State) : State :=
  { s.onRec i fun r => { r with st := .queued } with link := { s.link with queue := s.link.queue ++ [i] } }

theorem State.joinWriteQueue_eq (i : RecIx) : s.joinWriteQueue i = (s.enqueue i).issue := rfl

/-- A record at rest joins the write queue as QUEUED. -/
theorem State.joinWriteQueue_quiet (i : RecIx) (rest : (s.record i).AtRest) : Quiet s (s.joinWriteQueue i) := by
  have queued := s.onRec_atRest_quiet i (fun r => { r with st := .queued }) rest nofun (fun _ => rfl) rfl
  have joined : Quiet (s.onRec i fun r => { r with st := .queued }) (s.enqueue i) := by
    refine ⟨rfl, fun h => h.of_alike rfl rfl (fun _ => rfl) h.cleared (fun j mem => ?_) fun k q timer out => ⟨timer, out⟩⟩
    rcases List.mem_append.1 mem with before | last
    · exact .inl before
    · rw [List.mem_singleton.1 last, State.record_onRec_same]
      exact .inr rfl
  rw [State.joinWriteQueue_eq]
  exact (queued.trans joined).trans (State.issue_quiet _)

theorem State.leaveWriteQueue_quiet (i : RecIx) : Quiet s (s.leaveWriteQueue i) :=
  ⟨rfl, fun h => h.of_alike rfl rfl (fun _ => rfl) h.cleared (fun _ mem => .inl (List.mem_filter.1 mem).1)
    fun _ _ timer out => ⟨timer, out⟩⟩

/-- A record with no request out and no browse job is freed and leaves the write queue. -/
theorem State.freeRecord_leave_quiet (i : RecIx) (st : (s.record i).st.filling = false)
    (noTag : ∀ k q timer, s.tag k = .outstanding q timer → q.record ≠ i) :
    Quiet s ((s.freeRecord i).leaveWriteQueue i) := by
  have left : i ∉ (s.leaveWriteQueue i).link.queue := fun mem => by simpa using (List.mem_filter.1 mem).2
  exact ⟨rfl, fun h => ((s.leaveWriteQueue_quiet i).pool h).freeRecord i (h.idle st) left noTag⟩

/-! ### Answers of the gateway (R143 to R148) -/

theorem State.settleFailed_quiet (i : RecIx) (st : (s.record i).st.filling = false) : Quiet s (s.settleFailed i) := by
  refine .ite (fun settled => ?_) fun _ => .refl s
  simp only [Bool.and_eq_true, Bool.not_eq_true'] at settled
  refine Quiet.of_same (State.freeRecord_leave_quiet _ i st fun k q timer out mine => ?_) rfl
  exact absurd ((s.hasOutstanding_iff i).2 ⟨k, q, timer, out, mine⟩) (by simp [settled.2])

theorem State.haltStore_quiet (r : Byte) : Quiet s (s.haltStore r) :=
  .ite (fun _ => (State.engineNotice_quiet _ _ _).of_same rfl) fun _ => .refl s

/-- A tag is FREE or QUARANTINED again. -/
theorem State.dropTag_quiet (k : TagIx) (x : TagState) (answered : ∀ q timer, x ≠ .outstanding q timer) :
    Quiet s (s.setTag k x) := by
  refine ⟨rfl, fun h => h.of_alike rfl rfl (fun _ => rfl) h.cleared (fun _ mem => .inl mem) fun k' q timer out => ?_⟩
  rw [State.tag_setTag] at out
  split at out
  · exact absurd out (answered q timer)
  · exact ⟨timer, out⟩

/-- The request for a place of a record that is being written has come back: no tag stands for the place any more. -/
structure State.Returned (s : State) (i : RecIx) (ref : PageRef) : Prop where
  answers : (s.record i).Answers ref
  elsewhere : ∀ k q timer, s.tag k = .outstanding q timer → q.record = i → q.ref ≠ ref

theorem State.Returned.filling {s : State} {i : RecIx} {ref : PageRef} (back : s.Returned i ref) :
    (s.record i).st.filling = false := RecState.not_filling_of_enqueued back.answers.enqueued

theorem PoolInOrder.returned {s : State} (h : PoolInOrder s) {k : TagIx} {q : TagRequest} {timer : Timer}
    (out : s.tag k = .outstanding q timer) (x : TagState) (answered : ∀ q timer, x ≠ .outstanding q timer) :
    (s.setTag k x).Returned q.record q.ref := by
  refine ⟨by rw [State.setTag_record]; exact h.answers out, fun k' q' timer' out' record ref => ?_⟩
  have same : q' = q := by
    cases q
    cases q'
    simp_all
  rw [State.tag_setTag] at out'
  split at out'
  · exact answered _ _ out'
  · rename_i other
    exact other (h.alone out (same ▸ out'))

/-- The place of a request that has come back is marked. -/
theorem State.setMark_quiet (i : RecIx) (ref : PageRef) (m : Mark) (back : s.Returned i ref) :
    Quiet s (s.onRec i (Record.setMark ref m)) := by
  refine ⟨rfl, fun h => ?_⟩
  have enqueued := back.answers.enqueued
  refine h.put i ((s.record i).setMark ref m) s.pool.free s.browse.jobs (fun _ => rfl)
    (fun freed => absurd freed (RecState.ne_free_of_enqueued enqueued)) (h.jobs i) (fun _ _ => rfl) h.idle
    (fun _ => enqueued) fun k q timer out mine => ?_
  have before : (s.record i).Answers q.ref := mine ▸ h.answers out
  exact before.setMark ref m (back.elsewhere k q timer out mine) (.inr back.answers.not_acknowledged) before.written

/-- A request for an index that comes back was the last of its record that was out. -/
theorem State.Returned.no_tag {s : State} {i : RecIx} {ref : PageRef} (back : s.Returned i ref) (h : PoolInOrder s)
    (index : ref.part = .index) {k : TagIx} {q : TagRequest} {timer : Timer} (out : s.tag k = .outstanding q timer) :
    q.record ≠ i := fun mine => by
  have other : (s.record i).Answers q.ref := mine ▸ h.answers out
  rcases back.answers.place with page | ⟨rfl, all⟩
  · simp only [Record.pageRefs, List.mem_append, List.mem_map] at page
    rcases page with ⟨_, _, rfl⟩ | ⟨_, _, rfl⟩ <;> cases index
  · rcases other.place with page | ⟨same, _⟩
    · exact other.not_acknowledged (all q.ref page)
    · exact back.elsewhere k q timer out mine same

theorem State.ackOk_quiet (i : RecIx) (ref : PageRef) (back : s.Returned i ref) : Quiet s (s.ackOk i ref) := by
  refine .ite (fun _ => s.settleFailed_quiet i back.filling) fun _ => .ite (fun index => ?_) fun _ =>
    s.setMark_quiet i ref .acknowledged back
  refine ⟨rfl, fun h => ?_⟩
  exact (Quiet.of_same (State.freeRecord_leave_quiet _ i back.filling fun k q timer out => back.no_tag h index out)
    rfl).pool h

theorem State.ackFull_quiet (i : RecIx) (ref : PageRef) (back : s.Returned i ref) : Quiet s (s.ackFull i ref) :=
  (State.haltStore_quiet _ _).after
    (.ite (fun _ => s.settleFailed_quiet i back.filling) fun _ => s.setMark_quiet i ref .unwritten back)

/-- A record in the write queue fails (R147). -/
theorem State.failRecord_quiet (i : RecIx) (enqueued : (s.record i).st.enqueued = true) : Quiet s (s.failRecord i) := by
  have failed : Quiet s (s.onRec i Record.fail) := by
    refine ⟨rfl, fun h => ?_⟩
    refine h.put i (s.record i).fail s.pool.free s.browse.jobs (fun _ => rfl)
      (fun freed => absurd freed (RecState.ne_free_of_enqueued enqueued)) (h.jobs i) (fun _ _ => rfl) h.idle
      (fun _ => enqueued) fun k q timer out mine => ?_
    have before : (s.record i).Answers q.ref := mine ▸ h.answers out
    exact before.fail
  refine failed.trans (State.settleFailed_quiet _ i ?_)
  rw [State.record_onRec_same]
  exact RecState.not_filling_of_enqueued enqueued

theorem State.ackFault_quiet (i : RecIx) (enqueued : (s.record i).st.enqueued = true) : Quiet s (s.ackFault i) :=
  .ite (fun _ => s.settleFailed_quiet i (RecState.not_filling_of_enqueued enqueued))
    fun _ => s.failRecord_quiet i enqueued

theorem State.ackStatus_quiet (status : Byte) (i : RecIx) (ref : PageRef) (back : s.Returned i ref) :
    Quiet s (s.ackStatus status i ref) :=
  .ite (fun _ => s.ackOk_quiet i ref back) fun _ => .ite (fun _ => s.ackFull_quiet i ref back) fun _ =>
    s.ackFault_quiet i back.answers.enqueued

theorem State.countStray_quiet : Quiet s s.countStray := .of_stock rfl

theorem State.ackTag_quiet (k : TagIx) (status : Byte) : Quiet s (s.ackTag k status) := by
  unfold State.ackTag
  split
  · rename_i q timer out
    have freed := s.dropTag_quiet k .free nofun
    have judged : Quiet s ((s.setTag k .free).ackStatus status q.record q.ref) :=
      ⟨State.ackStatus_mem _ _ _ _, fun h =>
        (State.ackStatus_quiet _ status _ _ (h.returned out .free nofun)).pool (freed.pool h)⟩
    exact judged.trans (State.issue_quiet _)
  · exact ((s.dropTag_quiet k .free nofun).trans (State.countStray_quiet _)).trans (State.issue_quiet _)
  · exact s.countStray_quiet

theorem State.acknowledge_quiet (tag status : Byte) : Quiet s (s.acknowledge tag status) := by
  unfold State.acknowledge
  split
  · split
    · exact .ite (fun _ => s.countStray_quiet) fun _ => s.ackTag_quiet _ _
    · exact s.countStray_quiet
  · exact .refl s

theorem State.ackFault_mem (i : RecIx) : (s.ackFault i).mem = s.mem := by
  unfold State.ackFault
  split <;> simp

theorem State.storeExpiry_quiet (k : TagIx) : Quiet s (s.storeExpiry k) := by
  unfold State.storeExpiry
  split
  · rename_i q timer out
    refine .ite (fun _ => ⟨State.ackFault_mem _ _, fun h => ?_⟩) fun _ => .refl s
    have back := h.returned out (.quarantined q) nofun
    exact (State.ackFault_quiet _ _ back.answers.enqueued).pool ((s.dropTag_quiet k (.quarantined q) nofun).pool h)
  · exact .refl s
  · exact .refl s

theorem State.clearExpiry_quiet : Quiet s s.clearExpiry := .ite (fun _ => .of_stock rfl) fun _ => .refl s

theorem State.haltAssert_quiet : Quiet s s.haltAssert :=
  .ite (fun _ => (State.haltStore_quiet _ _).of_same rfl) fun _ => .of_stock rfl

theorem State.clearedReceived_quiet : Quiet s s.clearedReceived :=
  .ite (fun _ => .ite (fun _ => (State.issue_quiet _).of_same rfl) fun _ => s.countStray_quiet) fun _ => .refl s

/-! ### Segments (R83 to R95) -/

theorem State.countOpen_quiet (c : Port) (f : Counts → Counts) : Quiet s (s.countOpen c f) := by
  unfold State.countOpen
  split
  · rename_i i found
    exact s.onRec_quiet i _ (by simp [(s.openRecord_some c i found).1]) rfl
  · exact .refl s

theorem State.reported_record (i : RecIx) :
    (s.reported i).record i = { s.record i with drainTimer := none } := by
  rw [State.reported, State.transmit_record, State.record_onRec_same]

theorem State.reported_quiet (i : RecIx) (used : (s.record i).st ≠ .free) : Quiet s (s.reported i) :=
  (s.onRec_quiet i (fun r => { r with drainTimer := none }) used rfl).trans (.of_stock rfl)

/-- A record whose close is complete is at rest: it is freed, decides, or joins the write queue (R92 to R95). -/
theorem State.closeComplete_quiet (i : RecIx) (rest : (s.record i).AtRest) : Quiet s (s.closeComplete i) := by
  have reported := s.reported_quiet i (RecState.ne_free_of_loose rest.loose)
  have rest' : ((s.reported i).record i).AtRest := rest.of_holdings (by rw [State.reported_record]; rfl)
  rw [State.closeComplete_eq]
  exact .ite (fun _ => reported.trans (State.freeRecord_quiet _ i rest')) fun _ =>
    .ite (fun _ => reported.trans (State.onRec_atRest_quiet _ i _ rest' nofun (fun _ => rfl) rfl)) fun _ =>
      reported.trans (State.joinWriteQueue_quiet _ i rest')

/-- An OPEN record is closed (R91). -/
theorem State.closeRecord_quiet (torn : Bool) (i : RecIx) (opened : (s.record i).st = .opened) :
    Quiet s (s.closeRecord torn i) := by
  have loose : (s.record i).st.loose = true := by rw [opened]; rfl
  have closing (f : Record → Record) (h : ∀ r, (f r).holdings = { r with st := .closing }.holdings) :
      Quiet s (s.onRec i f) := by
    obtain ⟨st, _, jobs, _, pages⟩ := Record.holdings_eq (h (s.record i))
    refine ⟨rfl, fun inv => inv.onRec_loose i f loose ?_ pages jobs ?_⟩ <;> rw [st] <;> exact nofun
  rw [State.closeRecord_eq]
  refine .ite (fun none => ?_) fun _ => closing _ fun _ => rfl
  refine (closing (Record.closing torn) fun _ => rfl).trans (State.closeComplete_quiet _ i ?_)
  rw [State.record_onRec_same]
  exact ⟨rfl, fun _ => none⟩

theorem State.closeOpen_quiet (torn : Bool) (c : Port) : Quiet s (s.closeOpen torn c) := by
  unfold State.closeOpen
  split
  · rename_i i found
    exact s.closeRecord_quiet torn i (s.openRecord_some c i found).1
  · exact .refl s

theorem State.overrun_quiet (r : Byte) (c : Port) : Quiet s (s.overrun r c) :=
  (State.channelNotice_quiet _ _ _ c).of_same rfl

theorem State.lowestFree_some {i : RecIx} (h : s.lowestFree = some i) : (s.record i).st = .free := by
  simpa using List.find?_some h

theorem State.openSegment_quiet (c : Port) (key : Key) : Quiet s (s.openSegment c key) := by
  by_cases used : (s.findKey key).isSome = true
  · rw [s.openSegment_of_key c key used]
    exact s.overrun_quiet _ c
  · cases free : s.lowestFree with
    | some i =>
      rw [s.openSegment_of_free c key used free]
      exact ⟨rfl, fun h => h.setUp i (s.lowestFree_some free) c key _ _⟩
    | none =>
      cases held : s.oldestHeld with
      | some i =>
        rw [s.openSegment_of_held c key used free held]
        refine (s.evict_quiet i (s.oldestHeld_held held)).trans ⟨rfl, fun h => h.setUp i ?_ c key _ _⟩
        rw [State.evict_record, if_pos rfl]
        rfl
      | none =>
        rw [s.openSegment_of_full c key used free held]
        exact s.overrun_quiet _ c

end Sys2Proof.Machine
end

section
/-! PROOFS. What browse jobs and twin messages do to staging memory and to the pool in order. A job that joins, leaves or is
withdrawn goes with a change of its record's pending jobs (R102, R111, R113, R114). -/

namespace Sys2Proof.Machine

/-! ### The jobs of a record -/

theorem jobsOf_cons (i : RecIx) (j : Job) (l : List Job) :
    jobsOf i (j :: l) = jobsOf i l + if j.pendingFor i = true then 1 else 0 := by
  unfold jobsOf
  rw [List.filter_cons]
  split <;> simp

theorem jobsOf_snoc (i : RecIx) (l : List Job) (j : Job) :
    jobsOf i (l ++ [j]) = jobsOf i l + if j.pendingFor i = true then 1 else 0 := by
  unfold jobsOf
  rw [List.filter_append, List.length_append, List.filter_cons]
  split <;> rfl

theorem Job.pendingFor_iff (i : RecIx) (j : Job) : j.pendingFor i = true ↔ j.record = i ∧ j.withdrawn = false := by
  simp [Job.pendingFor]

theorem jobsOf_filter_same (i : RecIx) (l : List Job) : jobsOf i (l.filter fun x => !x.pendingFor i) = 0 := by
  simp [jobsOf, List.filter_filter]

theorem jobsOf_filter_other {i j : RecIx} (other : j ≠ i) (l : List Job) :
    jobsOf j (l.filter fun x => !x.pendingFor i) = jobsOf j l := by
  unfold jobsOf
  rw [List.filter_filter]
  congr 2
  funext x
  by_cases mine : x.pendingFor j = true
  · have apart : ¬ x.pendingFor i = true := fun yours =>
      other (((x.pendingFor_iff j).1 mine).1.symm.trans ((x.pendingFor_iff i).1 yours).1)
    simp [mine, apart]
  · simp [mine]

theorem jobsOf_withdrawJobs_same (i : RecIx) (b : BrowseUnit) : jobsOf i (withdrawJobs i b) = 0 := by
  unfold withdrawJobs
  split
  · rename_i j rest _ _
    have head : (if j.pendingFor i = true then { j with withdrawn := true } else j).pendingFor i = false := by
      split
      · simp [Job.pendingFor]
      · simpa using ‹¬ j.pendingFor i = true›
    rw [jobsOf_cons, head, jobsOf_filter_same]
    rfl
  · exact jobsOf_filter_same i _

theorem jobsOf_withdrawJobs_other {i j : RecIx} (other : j ≠ i) (b : BrowseUnit) :
    jobsOf j (withdrawJobs i b) = jobsOf j b.jobs := by
  unfold withdrawJobs
  split
  · rename_i x rest _ jobs
    have head : (if x.pendingFor i = true then { x with withdrawn := true } else x).pendingFor j = x.pendingFor j := by
      split
      · rename_i mine
        have apart : ¬ x.pendingFor j = true := fun yours =>
          other (((x.pendingFor_iff j).1 yours).1.symm.trans ((x.pendingFor_iff i).1 mine).1)
        simp [Job.pendingFor] at apart ⊢
        exact apart
      · rfl
    rw [jobs, jobsOf_cons, jobsOf_cons, head, jobsOf_filter_other other]
  · exact jobsOf_filter_other other _

variable (s : State)

/-! ### Selection (R100 to R103) -/

theorem State.startCoder_quiet : Quiet s s.startCoder := by
  unfold State.startCoder
  split
  · exact .of_stock rfl
  · exact .refl s

theorem State.appendEntry_quiet (i : RecIx) (e : BrowseEntry) (used : (s.record i).st ≠ .free) :
    Quiet s (s.appendEntry i e) := s.onRec_quiet i _ used rfl

/-- The job of a selected frame: its entry is the next of the record's browse entry list (R102). -/
def Record.newJob (c : Port) (i : RecIx) (offset length : Nat) (r : Record) : Job where
  channel := c
  record := i
  entry := r.entries.length
  offset := offset
  length := length
  withdrawn := false

/-- A job joins the queue with a pending job of its record, which is OPEN (R102). -/
theorem State.selectPresent_quiet (c : Port) (i : RecIx) (o n : Nat) (opened : (s.record i).st = .opened) :
    Quiet s (s.selectPresent c i o n) := by
  refine .ite (fun _ => ?_) fun _ => (s.appendEntry_quiet i _ (by simp [opened])).trans (.of_stock rfl)
  refine (State.startCoder_quiet _).after ⟨rfl, fun h => ?_⟩
  have loose : (s.record i).st.loose = true := by rw [opened]; rfl
  have filling : (s.record i).st.filling = true := by rw [opened]; rfl
  refine (h.put i
    { s.record i with
      entries := (s.record i).entries ++ [.reserved], pendingJobs := (s.record i).pendingJobs + 1 }
    s.pool.free (s.browse.jobs ++ [(s.record i).newJob c i o n]) (fun _ => rfl)
    (fun freed => absurd freed (RecState.ne_free_of_loose loose)) ?_ (fun j other => ?_)
    (fun st => absurd filling (by simp [show (s.record i).st.filling = false from st]))
    (fun queued => absurd queued (h.not_mem_queue loose))
    fun k q timer out mine => absurd mine (h.no_tag loose out)).of_stock ?_
  · rw [jobsOf_snoc, if_pos ((Job.pendingFor_iff i ((s.record i).newJob c i o n)).2 ⟨rfl, rfl⟩), ← h.jobs i]
  · rw [jobsOf_snoc, if_neg fun mine => other ((Job.pendingFor_iff _ _).1 mine).1.symm, Nat.add_zero]
  · simp only [State.stock, State.appendEntry, State.onRec_onRec]
    rfl

theorem State.offer_quiet (c : Port) (i : RecIx) (f : Option (Nat × Nat)) (opened : (s.record i).st = .opened) :
    Quiet s (s.offer c i f) := by
  unfold State.offer
  dsimp only
  split
  · split
    · exact (State.selectPresent_quiet _ c i _ _ (by rwa [State.onSel_record])).of_same rfl
    · exact (State.appendEntry_quiet _ i _ (by rw [State.onSel_record, opened]; exact nofun)).of_same rfl
  · exact .of_stock rfl

/-! ### Completions (R108 to R111) -/

theorem State.settleSkip_quiet (j : Job) (used : (s.record j.record).st ≠ .free) : Quiet s (s.settleSkip j) :=
  (s.onRec_quiet j.record (fun r => { r with entries := r.entries.set j.entry .skip }) used rfl).trans (.of_stock rfl)

/-- The state with other contents of staging memory. -/
def State.setMem (m : Memory) (s : State) : State := { s with mem := m }

/-- Writing bytes into a page list keeps the canonical form of staging memory. -/
theorem State.setMem_sound (pages : List Nat) (x : Nat) (bytes : List Byte) :
    Sound s (s.setMem (s.mem.writeStream pages x bytes)) :=
  ⟨Memory.writeStream_wf _ _ _ _, fun h => h.of_alike rfl rfl (fun _ => rfl) h.cleared (fun _ mem => .inl mem)
    fun _ _ timer out => ⟨timer, out⟩⟩

/-- What a kept frame does once its pages are found: the coded bytes, the byte count, the entry and the budget (R110). -/
def State.storeCoded (j : Job) (start : Nat) (coded : List Byte) (s : State) : State :=
  let s := s.setMem (s.mem.writeStream (s.record j.record).brwPages start coded)
  let s := s.onRec j.record fun r => { r with brwBytes := r.brwBytes + coded.length }
  let s := s.setEntry j.record j.entry (.size coded.length)
  s.onSel j.channel fun x => { x with fullness := x.fullness + coded.length - x.target }

/-- A kept frame is stored once its pages are found, and is skipped when they are not (R110). -/
theorem State.settleKeep_cases (j : Job) (coded : List Byte) :
    (∃ n t, s.requestPages j.record .browse n = (t, true) ∧
      s.settleKeep j coded = t.storeCoded j (s.record j.record).brwBytes coded) ∨
    (∃ n t, s.requestPages j.record .browse n = (t, false) ∧ s.settleKeep j coded = t.settleSkip j) := by
  rw [State.settleKeep.eq_1]
  split
  · rename_i t e
    exact .inl ⟨_, t, e, rfl⟩
  · rename_i t e
    exact .inr ⟨_, t, e, rfl⟩

theorem State.storeCoded_sound (j : Job) (start : Nat) (coded : List Byte) (used : (s.record j.record).st ≠ .free) :
    Sound s (s.storeCoded j start coded) := by
  have written := s.setMem_sound (s.record j.record).brwPages start coded
  have counted := written.trans (Quiet.sound (State.onRec_quiet _ j.record
    (fun r => { r with brwBytes := r.brwBytes + coded.length }) (by exact used) rfl))
  refine (counted.trans (Quiet.sound (State.onRec_quiet _ j.record
    (fun r => { r with entries := r.entries.set j.entry (.size coded.length) }) ?_ rfl))).trans (Quiet.sound (.of_stock rfl))
  rw [State.record_onRec_same]
  exact used

/-- A page request leaves staging memory as it is. -/
theorem State.mem_of_requestPages {i : RecIx} {l : PageList} {n : Nat} {t : State} {found : Bool}
    (h : s.requestPages i l n = (t, found)) : t.mem = s.mem := by
  rw [← s.requestPages_mem i l n, h]

/-- A page request leaves the browse jobs as they are. -/
theorem State.jobs_of_requestPages {i : RecIx} {l : PageList} {n : Nat} {t : State} {found : Bool}
    (h : s.requestPages i l n = (t, found)) : t.browse.jobs = s.browse.jobs := by
  rw [← (s.requestPages_aside i l n).jobs, h]

/-- A request leaves a record that is not HELD in its state. -/
theorem State.requestPages_st (i : RecIx) (l : PageList) (n : Nat) (kept : (s.record i).st ≠ .held) {t : State} {found : Bool}
    (h : s.requestPages i l n = (t, found)) : (t.record i).st = (s.record i).st := by
  cases found with
  | true =>
    obtain ⟨_, _, record⟩ := s.requestPages_record i l n kept h
    rw [record, Record.withPages_st]
  | false => rw [s.requestPages_record_of_fail i l n kept h]

theorem State.requestPages_quiet (i : RecIx) (l : PageList) (n : Nat) (filling : (s.record i).st.filling = true) {t : State}
    {found : Bool} (h : s.requestPages i l n = (t, found)) : Quiet s t := by
  refine ⟨s.mem_of_requestPages h, fun inv => ?_⟩
  have taken := inv.requestPages i l n filling
  rwa [h] at taken

theorem State.settleKeep_sound (j : Job) (coded : List Byte) (filling : (s.record j.record).st.filling = true) :
    Sound s (s.settleKeep j coded) := by
  have used {t : State} {found : Bool} {n : Nat} (e : s.requestPages j.record .browse n = (t, found)) :
      (t.record j.record).st ≠ .free := by
    rw [s.requestPages_st j.record .browse n (RecState.ne_held_of_filling filling) e]
    exact RecState.ne_free_of_loose (RecState.loose_of_filling filling)
  rcases s.settleKeep_cases j coded with ⟨n, t, e, settled⟩ | ⟨n, t, e, settled⟩
  · rw [settled]
    exact (s.requestPages_quiet _ _ _ filling e).sound.trans (t.storeCoded_sound j _ coded (used e))
  · rw [settled]
    exact ((s.requestPages_quiet _ _ _ filling e).trans (t.settleSkip_quiet j (used e))).sound

theorem State.settleJob_sound (j : Job) (coded : List Byte) (filling : (s.record j.record).st.filling = true) :
    Sound s (s.settleJob j coded) :=
  .ite (fun _ => (s.settleSkip_quiet j (RecState.ne_free_of_loose (RecState.loose_of_filling filling))).sound)
    fun _ => s.settleKeep_sound j coded filling

theorem State.settleJob_wf (j : Job) (coded : List Byte) (wf : s.mem.wf = true) : (s.settleJob j coded).mem.wf = true := by
  unfold State.settleJob
  dsimp only
  split
  · exact wf
  · rcases s.settleKeep_cases j coded with ⟨n, t, e, settled⟩ | ⟨n, t, e, settled⟩
    · rw [settled]
      exact Memory.writeStream_wf _ _ _ _ (s.mem_of_requestPages e ▸ wf)
    · rw [settled]
      exact s.mem_of_requestPages e ▸ wf

theorem State.settleJob_jobs (j : Job) (coded : List Byte) : (s.settleJob j coded).browse.jobs = s.browse.jobs := by
  unfold State.settleJob
  dsimp only
  split
  · rfl
  · rcases s.settleKeep_cases j coded with ⟨n, t, e, settled⟩ | ⟨n, t, e, settled⟩
    · rw [settled]
      exact Eq.trans (b := t.browse.jobs) rfl (s.jobs_of_requestPages e)
    · rw [settled]
      exact Eq.trans (b := t.browse.jobs) rfl (s.jobs_of_requestPages e)

theorem PoolInOrder.pending_of_head {s : State} (h : PoolInOrder s) {j : Job} {rest : List Job}
    (jobs : s.browse.jobs = j :: rest) (standing : j.withdrawn = false) :
    (s.record j.record).pendingJobs = jobsOf j.record rest + 1 := by
  rw [h.jobs, jobs, jobsOf_cons, if_pos ((j.pendingFor_iff _).2 ⟨rfl, standing⟩)]

theorem PoolInOrder.filling_of_head {s : State} (h : PoolInOrder s) {j : Job} {rest : List Job}
    (jobs : s.browse.jobs = j :: rest) (standing : j.withdrawn = false) : (s.record j.record).st.filling = true :=
  h.filling (by rw [h.pending_of_head jobs standing]; exact Nat.succ_ne_zero _)

/-- The head job leaves the queue, settled (steps 1 and 2 of R111). -/
theorem PoolInOrder.settled {s : State} (h : PoolInOrder s) {j : Job} {rest : List Job} (jobs : s.browse.jobs = j :: rest)
    (standing : j.withdrawn = false) : PoolInOrder (s.put j.record
      { s.record j.record with pendingJobs := (s.record j.record).pendingJobs - 1 } s.pool.free rest) := by
  have filling := h.filling_of_head jobs standing
  have loose := RecState.loose_of_filling filling
  refine h.put j.record _ _ _ (fun _ => rfl) (fun freed => absurd freed (RecState.ne_free_of_loose loose)) ?_
    (fun i other => ?_) (fun st => absurd filling (by simp [show (s.record j.record).st.filling = false from st]))
    (fun queued => absurd queued (h.not_mem_queue loose)) fun k q timer out mine => absurd mine (h.no_tag loose out)
  · show (s.record j.record).pendingJobs - 1 = _
    rw [h.pending_of_head jobs standing, Nat.add_sub_cancel]
  · rw [jobs, jobsOf_cons, if_neg fun mine => other ((j.pendingFor_iff _).1 mine).1.symm, Nat.add_zero]

/-- A withdrawn head job leaves the queue: no record counts it. -/
theorem PoolInOrder.dropWithdrawn {s : State} (h : PoolInOrder s) {j : Job} {rest : List Job}
    (jobs : s.browse.jobs = j :: rest) (withdrawn : j.withdrawn = true) (coder : Coder) :
    PoolInOrder { s with browse := { jobs := rest, coder := coder } } := by
  refine .mk h.pages h.cleared (fun i => ?_) (fun i => h.idle) (fun i => h.enqueued) (fun k q timer => h.answers)
    fun k k' q timer timer' out out' => h.alone out out'
  have counted := h.jobs i
  rw [jobs, jobsOf_cons, if_neg (by simp [Job.pendingFor, withdrawn])] at counted
  exact counted

theorem State.closeIfDrained_quiet (i : RecIx) : Quiet s (s.closeIfDrained i) :=
  .ite (fun drained => s.closeComplete_quiet i ⟨by rw [drained.1]; rfl, fun _ => drained.2⟩) fun _ => .refl s

theorem State.nextJob_eq : s.nextJob = State.startCoder { s with browse := { jobs := s.browse.jobs.tail, coder := .idle } } :=
  rfl

theorem State.nextJob_mem : s.nextJob.mem = s.mem := by rw [State.nextJob_eq, (State.startCoder_quiet _).mem]

/-- A completion stores coded bytes at most, and settles the head job (R111). -/
theorem State.complete_sound (coded : List Byte) : Sound s (s.complete coded) := by
  unfold State.complete
  split
  · rename_i q j rest coder jobs
    refine .ite (fun withdrawn => ⟨fun wf => s.nextJob_mem ▸ wf, fun h => ?_⟩) fun standing => ?_
    · have dropped := h.dropWithdrawn jobs withdrawn .idle
      rw [State.nextJob_eq, jobs]
      exact (State.startCoder_quiet _).pool dropped
    · rw [Bool.not_eq_true] at standing
      refine (State.closeIfDrained_quiet _ j.record).sound.after ⟨fun wf => ?_, fun h => ?_⟩
      · rw [State.nextJob_mem]
        exact s.settleJob_wf j coded wf
      · have after := (s.settleJob_sound j coded (h.filling_of_head jobs standing)).pool h
        have head := (s.settleJob_jobs j coded).trans jobs
        rw [State.nextJob_eq]
        refine (State.startCoder_quiet _).pool ((after.settled head standing).of_stock ?_)
        rw [State.onRec_browse, head]
        rfl
  · exact .refl s

/-! ### Withdrawal (R113, R114) -/

/-- The jobs of a record are withdrawn, their entries skipped and counted (R113). -/
def State.skipJobs (i : RecIx) (s : State) : State :=
  let js := s.browse.jobs.filter (Job.pendingFor i)
  ((s.withdraw i).onRec i fun r =>
      { r with entries := js.foldl (fun es j => es.set j.entry .skip) r.entries, pendingJobs := 0 }).onSel
    (s.record i).channel fun x => { x with skips := satAdd x.skips js.length }

theorem State.drainExpiry_eq (i : RecIx) : s.drainExpiry i = (s.skipJobs i).closeComplete i := rfl

theorem State.skipJobs_quiet (i : RecIx) (loose : (s.record i).st.loose = true) : Quiet s (s.skipJobs i) := by
  refine ⟨rfl, fun h => (h.put i { s.record i with
      entries := (s.browse.jobs.filter (Job.pendingFor i)).foldl (fun es j => es.set j.entry .skip) (s.record i).entries
      pendingJobs := 0 } s.pool.free (withdrawJobs i s.browse) (fun _ => rfl)
    (fun freed => absurd freed (RecState.ne_free_of_loose loose)) (jobsOf_withdrawJobs_same i _).symm
    (fun j other => jobsOf_withdrawJobs_other other _) (fun _ => rfl)
    (fun queued => absurd queued (h.not_mem_queue loose))
    fun k q timer out mine => absurd mine (h.no_tag loose out)).of_stock rfl⟩

/-- The jobs of a CLOSING record are withdrawn, and its close is complete (R113). -/
theorem State.drainExpiry_quiet (i : RecIx) (closing : (s.record i).st = .closing) : Quiet s (s.drainExpiry i) := by
  have loose : (s.record i).st.loose = true := by rw [closing]; rfl
  rw [State.drainExpiry_eq]
  refine (s.skipJobs_quiet i loose).trans (State.closeComplete_quiet _ i ?_)
  rw [State.skipJobs, State.onSel_record, State.record_onRec_same]
  exact ⟨loose, fun _ => rfl⟩

theorem State.takeDrain_quiet (i : RecIx) : Quiet s (s.takeDrain i) :=
  .ite (fun due => s.drainExpiry_quiet i due.1) fun _ => .refl s

/-- RESET CHANNEL frees a record with its jobs (R96, R114). -/
theorem State.resetRecord_quiet (c : Port) (i : RecIx) : Quiet s (s.resetRecord c i) := by
  refine .ite (fun mine => ⟨rfl, fun h => ?_⟩) fun _ => .refl s
  have loose : (s.record i).st.loose = true := by
    have freed := mine.2
    rw [freedByReset_eq] at freed
    exact freed
  refine (h.put i Record.cleared (s.pool.free ++ (s.record i).essPages ++ (s.record i).brwPages)
    (withdrawJobs i s.browse) (fun p => ?_) (fun _ => rfl) (jobsOf_withdrawJobs_same i _).symm
    (fun j other => jobsOf_withdrawJobs_other other _) (fun _ => rfl)
    (fun queued => absurd queued (h.not_mem_queue loose))
    fun k q timer out e => absurd e (h.no_tag loose out)).of_stock rfl
  simp only [Record.pageCount, Record.cleared, List.count_append, List.count_nil]
  omega

/-! ### Copy arbitration (R119 to R135) -/

theorem State.windowExpiry_quiet (i : RecIx) : Quiet s (s.windowExpiry i) := by
  refine .ite (fun due => ?_) fun _ => .refl s
  have deciding := due.1
  have decided := s.onRec_quiet i
    (fun r => { r with windowTimer := none, decisionTime := some s.ref.count, peers := [] }) (by simp [deciding]) rfl
  have rest : ((s.onRec i fun r =>
      { r with windowTimer := none, decisionTime := some s.ref.count, peers := [] }).record i).AtRest := by
    rw [State.record_onRec_same]
    exact .of_deciding deciding
  exact .ite (fun _ => decided.trans (State.joinWriteQueue_quiet _ i rest)) fun _ =>
    decided.trans (State.onRec_atRest_quiet _ i _ rest nofun (fun _ => rfl) rfl)

theorem State.takeOver_quiet (i : RecIx) (held : (s.record i).st = .held) : Quiet s (s.takeOver i) := by
  have announced (m : Message) : Quiet s (State.transmit m (s.onRec i fun r => { r with commitTimer := none, ahead := [] })) :=
    (s.onRec_quiet i (fun r => { r with commitTimer := none, ahead := [] }) (by simp [held]) rfl).trans (.of_stock rfl)
  have st (m : Message) : ((State.transmit m (s.onRec i fun r => { r with commitTimer := none, ahead := [] })).record i).st =
      .held := by
    rw [State.transmit_record, State.record_onRec_same]
    exact held
  unfold State.takeOver
  dsimp only
  refine Quiet.trans (((announced _).trans (State.onRec_quiet _ i (fun r => { r with takenOver := true })
    (by rw [st]; exact nofun) rfl)).trans (State.joinWriteQueue_quiet _ i (.of_held ?_))) (.of_stock rfl)
  rw [State.record_onRec_same]
  exact st _

theorem State.commitExpiry_quiet (i : RecIx) : Quiet s (s.commitExpiry i) :=
  .ite (fun due => s.takeOver_quiet i due.1) fun _ => .refl s

theorem State.hearReport_quiet (m : Heard) : Quiet s (s.hearReport m) := by
  unfold State.hearReport State.peerReport
  dsimp only
  split
  · split
    · exact .of_stock rfl
    · rename_i i found
      exact .ite (fun _ => .refl s) fun _ =>
        .ite (fun _ => s.onRec_quiet i _ (s.findKey_some _ i found).1 rfl) fun _ => .of_stock rfl
  · exact .refl s

theorem State.storedFor_quiet (key : Key) : Quiet s (s.storedFor key) := by
  unfold State.storedFor
  split
  · exact .refl s
  · rename_i i found
    have used := (s.findKey_some key i found).1
    have elsewhere : Quiet s (s.onRec i fun r => { r with storedElsewhere := true }) := s.onRec_quiet i _ used rfl
    split
    · exact elsewhere
    · exact elsewhere
    · rename_i deciding
      exact s.freeRecord_quiet i (.of_deciding deciding)
    · rename_i held
      exact s.freeRecord_quiet i (.of_held held)
    · rename_i queued
      refine ⟨rfl, fun h => (s.freeRecord_leave_quiet i (by rw [queued]; rfl) fun k q timer out mine => ?_).pool h⟩
      have written := (h.answers out).written
      rw [mine, queued] at written
      rcases written with st | st <;> cases st
    · exact .refl s
    · exact .refl s
    · exact .refl s

theorem State.takeStored_quiet (m : HeardStored) : Quiet s (s.takeStored m) := by
  have heard : Quiet s (s.hearStored m.heard) := by
    unfold State.hearStored
    split
    · exact s.storedFor_quiet _
    · exact .refl s
  exact .ite (fun _ => heard.trans (State.issue_quiet _)) fun _ => heard

theorem State.waitsOn_held {key : Key} {station : Station} {i : RecIx} (h : s.waitsOn key station = some i) :
    (s.record i).st = .held := by
  have waits := (Option.filter_eq_some_iff.1 h).2
  simp only [Bool.and_eq_true, beq_iff_eq] at waits
  exact waits.1

theorem State.unstoredFor_quiet (key : Key) (station : Station) : Quiet s (s.unstoredFor key station) := by
  unfold State.unstoredFor
  split
  · exact .refl s
  · rename_i i waits
    have held := s.waitsOn_held waits
    have shortened := s.onRec_quiet i (fun r => { r with ahead := r.ahead.filter (· != station) }) (by simp [held]) rfl
    have still : ((s.onRec i fun r => { r with ahead := r.ahead.filter (· != station) }).record i).st = .held := by
      rw [State.record_onRec_same]
      exact held
    exact .ite (fun _ => shortened.trans (State.takeOver_quiet _ i still)) fun _ =>
      shortened.trans (State.onRec_quiet _ i _ (by rw [still]; exact nofun) rfl)

theorem State.hearUnstored_quiet (m : Heard) : Quiet s (s.hearUnstored m) := by
  unfold State.hearUnstored
  split
  · exact s.unstoredFor_quiet _ _
  · exact .refl s

theorem State.hearTakeover_quiet (m : Heard) : Quiet s (s.hearTakeover m) := by
  unfold State.hearTakeover State.takeoverFor
  split
  · split
    · exact .refl s
    · rename_i i waits
      exact s.onRec_quiet i _ (by simp [s.waitsOn_held waits]) rfl
  · exact .refl s

end Sys2Proof.Machine
end

section
/-! PROOFS. What every command does to staging memory and to the pool in order. A command that makes no house tick and no
completion is `Quiet`; the placement of a frame at a tick, and a completion, are `Sound`. -/

namespace Sys2Proof.Machine

variable (s : State)

/-! ### Placement (R36 to R51, R87 to R89) -/

theorem State.frameArrival_quiet (c : Port) (f : FrameRecord) : Quiet s (s.frameArrival c f) :=
  (s.onSync_quiet c _).trans (State.countOpen_quiet _ c _)

theorem State.syncLoss_quiet (c : Port) : Quiet s (s.syncLoss c) := (s.countOpen_quiet c _).trans (State.onSync_quiet _ c _)

/-- What a stored PRESENT does once its pages are found: its bytes, and what is entered of it (R88). -/
def State.storeFrame (i : RecIx) (start : Nat) (f : FrameRecord) (s : State) : State :=
  (s.setMem (s.mem.writeStream (s.record i).essPages start f.payload)).onRec i fun r =>
    { r with
      essBytes := r.essBytes + f.payload.length, sizes := r.sizes ++ [f.payload.length]
      timecode := r.timecode.or (some f.timecode) }

/-- The pages that the payload of a PRESENT needs beyond those of its record (R88). -/
def Record.pagesWanted (f : FrameRecord) (r : Record) : Nat :=
  pagesFor (r.essBytes + f.payload.length) - r.essPages.length

/-- A PRESENT is packed once its pages are found; otherwise the request alone has been made (R88, R89). -/
theorem State.pack_cases (i : RecIx) (f : FrameRecord) :
    (∃ t, s.requestPages i .essence ((s.record i).pagesWanted f) = (t, true) ∧
      s.pack i f = (t.storeFrame i (s.record i).essBytes f, true)) ∨
    (∃ t, s.requestPages i .essence ((s.record i).pagesWanted f) = (t, false) ∧ s.pack i f = (t, false)) := by
  rw [State.pack.eq_1]
  split
  · rename_i t e
    exact .inl ⟨t, e, rfl⟩
  · rename_i t e
    exact .inr ⟨t, e, rfl⟩

theorem State.storeFrame_sound (i : RecIx) (start : Nat) (f : FrameRecord) (used : (s.record i).st ≠ .free) :
    Sound s (s.storeFrame i start f) :=
  (s.setMem_sound (s.record i).essPages start f.payload).trans
    (Quiet.sound (State.onRec_quiet _ i _ (by exact used) rfl))

/-- Packing changes of its record the essence pages and what is entered of the frame. -/
theorem State.pack_record (i : RecIx) (f : FrameRecord) (kept : (s.record i).st ≠ .held) :
    (((s.pack i f).1.record i).st = (s.record i).st) ∧ ((s.pack i f).1.record i).map = (s.record i).map := by
  rcases s.pack_cases i f with ⟨t, request, pack⟩ | ⟨t, request, pack⟩
  · obtain ⟨taken, _, record⟩ := s.requestPages_record i _ _ kept request
    have st := congrArg Record.st record
    have map := congrArg Record.map record
    rw [pack, State.storeFrame, State.record_onRec_same]
    exact ⟨st, map⟩
  · rw [pack, s.requestPages_record_of_fail i _ _ kept request]
    exact ⟨rfl, rfl⟩

theorem State.pack_sound (i : RecIx) (f : FrameRecord) (opened : (s.record i).st = .opened) : Sound s (s.pack i f).1 := by
  have filling : (s.record i).st.filling = true := by rw [opened]; rfl
  rcases s.pack_cases i f with ⟨t, request, pack⟩ | ⟨t, request, pack⟩
  · have st := s.requestPages_st i _ _ (RecState.ne_held_of_filling filling) request
    rw [pack]
    exact (s.requestPages_quiet _ _ _ filling request).sound.trans
      (t.storeFrame_sound i _ f (by rw [st, opened]; exact nofun))
  · rw [pack]
    exact (s.requestPages_quiet _ _ _ filling request).sound

theorem State.startCoder_record (i : RecIx) : s.startCoder.record i = s.record i := by
  unfold State.startCoder
  split <;> rfl

theorem State.selectPresent_record (c : Port) (i : RecIx) (o n : Nat) :
    ∃ entries jobs, (s.selectPresent c i o n).record i = { s.record i with entries := entries, pendingJobs := jobs } := by
  unfold State.selectPresent
  split
  · have twice : (((s.appendEntry i .reserved).onRec i fun r => { r with pendingJobs := r.pendingJobs + 1 }).record i) =
        { s.record i with
          entries := (s.record i).entries ++ [.reserved], pendingJobs := (s.record i).pendingJobs + 1 } := by
      rw [State.record_onRec_same, State.appendEntry, State.record_onRec_same]
    exact ⟨_, _, (State.startCoder_record _ i).trans twice⟩
  · exact ⟨_, _, (State.onSel_record _ _ _ i).trans (s.record_onRec_same i _)⟩

/-- An offer to the selector changes of the record its browse entries and its pending jobs (R100 to R103). -/
theorem State.offer_record (c : Port) (i : RecIx) (f : Option (Nat × Nat)) :
    ∃ entries jobs, (s.offer c i f).record i = { s.record i with entries := entries, pendingJobs := jobs } := by
  unfold State.offer
  dsimp only
  split
  · split
    · obtain ⟨entries, jobs, record⟩ := State.selectPresent_record
        (s.onSel c fun x => { x with a := x.a + x.n - x.d }) c i _ _
      exact ⟨entries, jobs, record.trans (by rw [State.onSel_record])⟩
    · exact ⟨_, _, (State.record_onRec_same _ i _).trans (by rw [State.onSel_record])⟩
  · exact ⟨_, _, State.onSel_record _ _ _ i⟩

theorem State.enterPlacement_record (c : Port) (i : RecIx) (k : PlacementKind) (key : Bool) (f : Option (Nat × Nat)) :
    ((s.enterPlacement c i k key f).record i).st = (s.record i).st ∧
      ((s.enterPlacement c i k key f).record i).map = (s.record i).map ++ [{ kind := k, key := key }] := by
  unfold State.enterPlacement
  obtain ⟨entries, jobs, record⟩ := State.offer_record
    (s.onRec i fun r => ({ r with map := r.map ++ [{ kind := k, key := key }] } : Record).count k.count) c i f
  dsimp only
  rw [record, State.record_onRec_same]
  exact ⟨rfl, rfl⟩

theorem State.enterPlacement_quiet (c : Port) (i : RecIx) (k : PlacementKind) (key : Bool) (f : Option (Nat × Nat))
    (opened : (s.record i).st = .opened) : Quiet s (s.enterPlacement c i k key f) := by
  refine (s.onRec_quiet i (fun r =>
    ({ r with map := r.map ++ [{ kind := k, key := key }] } : Record).count k.count) (by simp [opened]) rfl).trans
      (State.offer_quiet _ c i f ?_)
  rw [State.record_onRec_same]
  exact opened

/-- A placement is a PRESENT that is packed, or is entered with nothing packed. -/
theorem State.appendPlacement_present (c : Port) (i : RecIx) (f : FrameRecord) : s.appendPlacement c i (.present f) =
    if (s.pack i f).2 = true then
      (s.pack i f).1.enterPlacement c i .present f.key (some ((s.record i).essBytes, f.payload.length))
    else (s.pack i f).1.enterPlacement c i .fill false none := by
  rw [State.appendPlacement.eq_1]
  split
  · rename_i t e
    rw [e, if_pos rfl]
  · rename_i t e
    rw [e, if_neg nofun]

theorem State.appendPlacement_repeated (c : Port) (i : RecIx) :
    s.appendPlacement c i .repeated = s.enterPlacement c i .repeated false none := rfl

theorem State.appendPlacement_fill (c : Port) (i : RecIx) :
    s.appendPlacement c i .fill = s.enterPlacement c i .fill false none := rfl

/-- A placement appended to a record that is not HELD adds one map entry and leaves the record in its state (R87). -/
theorem State.appendPlacement_record (c : Port) (i : RecIx) (x : Placement) (kept : (s.record i).st ≠ .held) :
    ((s.appendPlacement c i x).record i).st = (s.record i).st ∧
      ∃ e, ((s.appendPlacement c i x).record i).map = (s.record i).map ++ [e] := by
  have entered (t : State) (st : (t.record i).st = (s.record i).st) (map : (t.record i).map = (s.record i).map)
      (k : PlacementKind) (key : Bool) (frame : Option (Nat × Nat)) :
      ((t.enterPlacement c i k key frame).record i).st = (s.record i).st ∧
        ∃ e, ((t.enterPlacement c i k key frame).record i).map = (s.record i).map ++ [e] := by
    obtain ⟨st', map'⟩ := t.enterPlacement_record c i k key frame
    exact ⟨st'.trans st, _, by rw [map', map]⟩
  cases x with
  | present f =>
    obtain ⟨st, map⟩ := s.pack_record i f kept
    rw [State.appendPlacement_present]
    split
    · exact entered _ st map _ _ _
    · exact entered _ st map _ _ _
  | repeated => rw [State.appendPlacement_repeated]; exact entered s rfl rfl _ _ _
  | fill => rw [State.appendPlacement_fill]; exact entered s rfl rfl _ _ _

theorem State.appendPlacement_sound (c : Port) (i : RecIx) (x : Placement) (opened : (s.record i).st = .opened) :
    Sound s (s.appendPlacement c i x) := by
  cases x with
  | present f =>
    have opened' : ((s.pack i f).1.record i).st = .opened := (s.pack_record i f (by simp [opened])).1.trans opened
    rw [State.appendPlacement_present]
    exact (s.pack_sound i f opened).trans (.either (State.enterPlacement_quiet _ c i _ _ _ opened').sound
      (State.enterPlacement_quiet _ c i _ _ _ opened').sound)
  | repeated => rw [State.appendPlacement_repeated]; exact (s.enterPlacement_quiet c i _ _ _ opened).sound
  | fill => rw [State.appendPlacement_fill]; exact (s.enterPlacement_quiet c i _ _ _ opened).sound

theorem State.releasePlacement_sound (c : Port) : Sound s (s.releasePlacement c) := by
  have released := (s.onSync_quiet c fun _ => (s.chan c).sync.release.sync).sound
  cases found : s.openRecord c with
  | none =>
    rw [s.releasePlacement_of_none c found]
    exact released
  | some i =>
    have opened : ((s.onSync c fun _ => (s.chan c).sync.release.sync).record i).st = .opened := by
      rw [State.onSync_record]
      exact (s.openRecord_some c i found).1
    have placed := released.trans (State.appendPlacement_sound _ c i (s.chan c).sync.release.placement opened)
    rw [s.releasePlacement_of_some c i found]
    refine placed.trans (Quiet.sound (State.onRec_quiet _ i (Record.count _) ?_ rfl))
    rw [(State.appendPlacement_record _ c i _ (by rw [opened]; exact nofun)).1, opened]
    exact nofun

/-! ### Takes (R63 to R72) -/

/-- The end of a take: the take controller, its tally and the notice. -/
theorem State.endOfTake_quiet (f : TakeController → TakeController) (reason : EndReason) (c : Port) :
    Quiet s (((s.onTake c f).retally c).takeEnd reason c) :=
  ((s.onTake_quiet c f).trans (State.retally_quiet _ c)).trans (State.channelNotice_quiet _ _ _ c)

theorem State.holdOverExpire_quiet (c : Port) : Quiet s (s.holdOverExpire c) :=
  (s.closeOpen_quiet true c).trans (State.endOfTake_quiet _ _ .loss c)

theorem State.boundaryClose_quiet (c : Port) : Quiet s (s.boundaryClose c) :=
  (s.closeOpen_quiet false c).trans (.either (State.endOfTake_quiet _ _ .stop c) (.refl _))

theorem State.announceClip_quiet (c : Port) : Quiet s (s.announceClip c) :=
  ((s.channelNotice_quiet _ _ c).trans (State.channelNotice_quiet _ _ _ c)).trans (State.onSel_quiet _ c _)

theorem State.takeStart_quiet (c : Port) (q : Cue) : Quiet s (s.takeStart c q) :=
  ((s.onTake_quiet c _).trans (State.retally_quiet _ c)).trans (State.announceClip_quiet _ c)

theorem State.settleCue_quiet (c : Port) : Quiet s (s.settleCue c) := by
  have replaced (q : Cue) : Quiet s (s.replaceCue c q) :=
    .either ((s.onTake_quiet c _).trans (State.channelNotice_quiet _ _ _ c))
      ((s.onTake_quiet c _).trans (State.announceClip_quiet _ c))
  unfold State.settleCue
  dsimp only
  split
  · split
    · exact replaced _
    · exact .either (.refl s) (s.endOfTake_quiet _ .normal c)
  · exact .refl s

theorem State.openSpan_quiet (c : Port) : Quiet s (s.openSpan c) := by
  unfold State.openSpan
  dsimp only
  split
  · exact .either (s.onTake_quiet c _) ((s.onTake_quiet c _).trans (State.openSegment_quiet _ c _))
  · exact (s.onTake_quiet c _).trans (State.openSegment_quiet _ c _)

theorem State.boundary_quiet (c : Port) : Quiet s (s.boundary c) := by
  have spanned (t : State) (h : Quiet s t) :
      Quiet s (if (t.chan c).take.st = .recording then t.openSpan c else t) :=
    h.trans (.either (t.openSpan_quiet c) (.refl t))
  have closed := s.boundaryClose_quiet c
  unfold State.boundary
  dsimp only
  apply spanned
  split
  · exact closed.trans (State.takeStart_quiet _ c _)
  · exact closed.trans (State.settleCue_quiet _ c)
  · exact closed

theorem State.takeTick_sound (preset : Bool) (c : Port) : Sound s (s.takeTick preset c) := by
  have placed (t : State) : Sound t (t.boundaryAndPlacement preset c) :=
    (State.releasePlacement_sound _ c).after (.either (t.boundary_quiet c).sound (.refl t))
  have counted : Sound s (s.onTake c fun t => { t with holdOver := t.holdOver + 1 }) := (s.onTake_quiet c _).sound
  exact .either (.refl s) <| .either
    (.either ((counted.trans (State.holdOverExpire_quiet _ c).sound).trans (placed _)) (counted.trans (placed _))) (placed s)

/-! ### Feed conditions and lane bytes (R15 to R28) -/

theorem State.declareLost_quiet (c : Port) (reason : LossReason) : Quiet s (s.declareLost c reason) :=
  .either (((((s.onPort_quiet c _).trans (State.retally_quiet _ c)).trans (State.onPort_quiet _ c _)).trans
    (State.channelNotice_quiet _ _ _ c)).trans (State.syncLoss_quiet _ c)) (s.onPort_quiet c _)

theorem State.feedBack_quiet (c : Port) : Quiet s (s.feedBack c) := by
  have live : Quiet s ((s.onPort c fun p => { p with feed := .live, firstSinceArm := false }).retally c) :=
    (s.onPort_quiet c _).trans (State.retally_quiet _ c)
  unfold State.feedBack
  dsimp only
  split
  · exact live.trans (State.onTake_quiet _ c _)
  · exact (live.trans (State.channelNotice_quiet _ _ _ c)).trans (State.onTake_quiet _ c _)

theorem State.samplePresence_quiet (level : Bool) (c : Port) : Quiet s (s.samplePresence level c) := by
  have fall (t : State) : Quiet t (t.presenceFall c) :=
    .either ((t.onPort_quiet c _).trans (State.declareLost_quiet _ c _)) (.refl t)
  exact .either (s.onPort_quiet c _) (.either (s.onPort_quiet c _)
    (.either (s.onPort_quiet c _) ((s.onPort_quiet c _).trans (fall _))))

theorem State.feedFault_quiet (c : Port) : Quiet s (s.feedFault c) := by
  have told := (s.setChan_quiet c ((s.chan c).shut true)).trans (State.channelNotice_quiet _ .feedFault 0x00#8 c)
  have idle (t : State) : Quiet t ((t.onTake c TakeController.toIdle).retally c) :=
    (t.onTake_quiet c _).trans (State.retally_quiet _ c)
  by_cases taking : (s.chan c).take.st = .recording ∨ (s.chan c).take.st = .ending
  · rw [s.feedFault_of_taking c taking]
    exact ((told.trans (State.closeOpen_quiet _ true c)).trans (State.channelNotice_quiet _ _ _ c)).trans (idle _)
  · rw [s.feedFault_of_not_taking c taking]
    exact told.trans (idle _)

theorem State.corruptOutcome_quiet (c : Port) : Quiet s (s.corruptOutcome c) :=
  .either ((s.onPort_quiet c _).trans (State.feedFault_quiet _ c)) (s.onPort_quiet c _)

theorem State.acceptFrame_quiet (c : Port) (h : Header) (payload : List Byte) : Quiet s (s.acceptFrame c h payload) := by
  have live (t : State) : Quiet t (if (t.chan c).port.feed = .live then t else t.feedBack c) :=
    .either (.refl t) (t.feedBack_quiet c)
  have arrived (r : FrameRecord) : Quiet s _ :=
    ((s.onPort_quiet c fun p => { p with accepted := satInc p.accepted, consecBad := 0, waitTimer := some p.fwt }).trans
      (live _)).trans (State.frameArrival_quiet _ c r)
  exact .either ((arrived _).trans (State.declareLost_quiet _ c _)) (arrived _)

theorem State.judgeHeader_quiet (c : Port) (got : List Byte) : Quiet s (s.judgeHeader c got) :=
  .either (s.onPort_quiet c _) ((s.onPort_quiet c _).trans (State.corruptOutcome_quiet _ c))

theorem State.judgeFrame_quiet (c : Port) (h : Header) (got : List Byte) : Quiet s (s.judgeFrame c h got) := by
  have good (t : State) (payload : List Byte) : Quiet t (t.goodFrame c h payload) :=
    .either (t.acceptFrame_quiet c h payload) (t.onPort_quiet c _)
  exact .either ((s.onPort_quiet c _).trans (good _ _)) ((s.onPort_quiet c _).trans (State.corruptOutcome_quiet _ c))

theorem State.laneByte_quiet (c : Port) (b : Byte) : Quiet s (s.laneByte c b) := by
  unfold State.laneByte
  split
  · exact .refl s
  · split
    · exact .either (s.onPort_quiet c _) (s.onPort_quiet c _)
    · exact .either (s.judgeHeader_quiet c _) (s.onPort_quiet c _)
    · exact .either (s.judgeFrame_quiet c _ _) (s.onPort_quiet c _)

theorem State.hearLane_quiet (c : Port) (x : LaneBytes) : Quiet s (s.hearLane c x) :=
  .either ((s.onPort_quiet c _).trans (Quiet.foldl (fun t b => t.laneByte_quiet c b) _ _)) (.refl s)

theorem State.waitingExpiry_quiet (c : Port) : Quiet s (s.waitingExpiry c) :=
  .either (.either (((s.onPort_quiet c _).trans (State.onPort_quiet _ c _)).trans (State.declareLost_quiet _ c _))
    (s.onPort_quiet c _)) (.refl s)

theorem State.takeHoldOver_quiet (c : Port) : Quiet s (s.takeHoldOver c) :=
  .either (s.holdOverExpire_quiet c) (.refl s)

/-! ### House ticks (R12, R13) -/

theorem Record.tickTimers_cleared (latch : Bool) : Record.cleared.tickTimers latch = Record.cleared := by
  cases latch <;> rfl

theorem State.tickTimers_quiet : Quiet s s.tickTimers := by
  refine ⟨rfl, fun h => h.of_alike rfl rfl (fun i => ?_) (fun i st => ?_) (fun _ mem => .inl mem)
    fun k q timer out => ?_⟩
  · rw [State.tickTimers_record]
    rfl
  · rw [State.tickTimers_record, h.cleared i st, Record.tickTimers_cleared]
  · rw [State.tickTimers_tag] at out
    cases before : s.tag k with
    | outstanding q' timer' =>
      rw [before] at out
      cases out
      exact ⟨timer', rfl⟩
    | free => rw [before] at out; cases out
    | quarantined q' => rw [before] at out; cases out

theorem State.tallyStep_quiet (c : Port) : Quiet s (s.tallyStep c) := s.onPort_quiet c _

theorem State.tickPart_sound (tick : TickInput) (preset : Bool) (part : TickPart) :
    Sound s (s.tickPart tick preset part) := by
  cases part with
  | presence c => exact (s.samplePresence_quiet _ c).sound
  | placement c => exact s.takeTick_sound preset c
  | tally c => exact (s.tallyStep_quiet c).sound
  | waiting c => exact (s.waitingExpiry_quiet c).sound
  | lane c b => exact (s.hearLane_quiet c _).sound
  | drain i => exact (s.takeDrain_quiet i).sound
  | window i => exact (s.windowExpiry_quiet i).sound
  | commit i => exact (s.commitExpiry_quiet i).sound
  | store k => exact (s.storeExpiry_quiet k).sound
  | clear => exact s.clearExpiry_quiet.sound

/-- A tick keeps both, whatever the Reference Unit has done before it. -/
theorem State.houseTick_withRef_sound (tick : TickInput) (r : RefUnit) :
    Sound s (State.houseTick tick { s with ref := r }) :=
  (Sound.foldl (fun t part => t.tickPart_sound tick _ part) _ _).after
    (Quiet.sound ((State.tickTimers_quiet _).of_same rfl))

theorem State.pulse_sound (time : Nat) (tick : TickInput) : Sound s (s.pulse time tick) := by
  unfold State.pulse State.realPulse
  dsimp only
  split
  · split
    · exact s.houseTick_withRef_sound tick _
    · exact s.houseTick_withRef_sound tick _
    · exact s.houseTick_withRef_sound tick _
    · exact .either (Quiet.sound ((State.engineNotice_quiet _ _ _).of_same rfl))
        ((s.houseTick_withRef_sound tick _).trans (State.engineNotice_quiet _ _ _).sound)
  · exact .refl s

theorem State.lossOfReference_sound (time : Nat) (tick : TickInput) : Sound s (s.lossOfReference time tick) := by
  unfold State.lossOfReference
  dsimp only
  split
  · exact (s.houseTick_withRef_sound tick _).trans (State.engineNotice_quiet _ _ _).sound
  · exact .refl s

theorem State.flywheelStep_sound (time : Nat) (tick : TickInput) : Sound s (s.flywheelStep time tick) := by
  unfold State.flywheelStep
  split
  · exact s.houseTick_withRef_sound tick _
  · exact .refl s

/-! ### Cue-line commands (R57 to R73, R150, R151, R179) -/

theorem State.arm_quiet (payload : List Byte) : Quiet s (s.arm payload).state := by
  unfold State.arm
  dsimp only
  split
  · exact .refl s
  · split
    · exact .refl s
    · split
      · exact .refl s
      · split
        · exact .refl s
        · exact (s.setChan_quiet _ _).trans (State.retally_quiet _ _)

theorem State.disarm_quiet (c : Port) : Quiet s (s.disarm c).state := by
  unfold State.disarm
  split
  · rw [State.closeChannel_eq]
    exact (s.setChan_quiet c _).trans (State.retally_quiet _ c)
  · exact .refl s
  · exact .refl s
  · exact .refl s

theorem State.cueCommand_quiet (q : Cue) (c : Port) : Quiet s (s.cueCommand q c).state := by
  unfold State.cueCommand
  dsimp only
  split
  · exact .refl s
  · split
    · exact .refl s
    · split
      · exact .refl s
      · split
        · exact .refl s
        · exact s.onTake_quiet c fun t => { t with buffer := some q, cueEmpty := false }

theorem State.stopCommand_quiet (c : Port) : Quiet s (s.stopCommand c).state := by
  unfold State.stopCommand
  dsimp only
  split
  · exact (s.onTake_quiet c _).trans (State.retally_quiet _ c)
  · split
    · exact s.onTake_quiet c fun t => { t with buffer := none }
    · exact .refl s
  · exact .refl s
  · exact .refl s

theorem State.cutCommand_quiet (c : Port) : Quiet s (s.cutCommand c).state := by
  unfold State.cutCommand
  dsimp only
  split
  · exact (s.closeOpen_quiet false c).trans (State.endOfTake_quiet _ _ .cut c)
  · exact .refl s

theorem State.resetChannelCommand_quiet (c : Port) : Quiet s (s.resetChannelCommand c).state := by
  have closed := s.setChan_quiet c (s.chan c).closedByReset
  have freed := closed.trans (Quiet.foldl (fun t i => t.resetRecord_quiet c i) allRecs _)
  unfold State.resetChannelCommand
  dsimp only [State.done]
  rw [State.closedByReset_eq]
  exact freed.trans (State.retally_quiet _ c)

theorem State.resumeCommand_quiet : Quiet s s.resumeCommand.state := by
  unfold State.resumeCommand
  split
  · exact .refl s
  · split
    · exact .refl s
    · split
      · exact .refl s
      · exact (State.issue_quiet _).of_same rfl

/-- With no request out, records that are being written are given up one after another (R151). -/
theorem State.giveUp_foldl_quiet (l : List RecIx) (s : State) (none : ∀ k, s.tag k = .free) :
    Quiet s (l.foldl State.giveUp s) := by
  induction l generalizing s with
  | nil => exact .refl s
  | cons i l ih =>
    have tags : ∀ k, (s.giveUp i).tag k = .free := by
      unfold State.giveUp
      split <;> exact none
    have given : Quiet s (s.giveUp i) := by
      refine .ite (fun written => ?_) fun _ => .refl s
      refine Quiet.of_same (State.freeRecord_leave_quiet _ i ?_ fun k q timer out => ?_) rfl
      · rw [State.transmit_record]
        rcases written with st | st <;> rw [st] <;> rfl
      · rw [State.transmit_tag, none k] at out
        cases out
    exact given.trans (ih _ tags)

theorem State.resetStoreCommand_quiet : Quiet s s.resetStoreCommand.state := by
  unfold State.resetStoreCommand
  dsimp only
  split
  · exact .refl s
  · have none (k : TagIx) :
        State.tag { s with link := { s.link with tags := Vector.replicate 16 .free } } k = .free := by
      simp [State.tag, Vector.get_eq_getElem]
    have freed : Quiet s { s with link := { s.link with tags := Vector.replicate 16 .free } } :=
      ⟨rfl, fun h => h.of_alike rfl rfl (fun _ => rfl) h.cleared (fun _ mem => .inl mem) fun k q timer out => by
        rw [none k] at out
        cases out⟩
    exact Quiet.trans (freed.trans (State.giveUp_foldl_quiet _ _ none)) (.of_stock rfl)

theorem State.command_quiet (kind : Byte) (need : Nat) (viaFeed viaAll : Bool) (channel : Byte) (act : State → Taken)
    (m : Heard) (effect : Quiet s (act s).state) : Quiet s (s.command kind need viaFeed viaAll channel act m) := by
  unfold State.command
  split
  · split
    · exact .either (s.transmit_quiet _) (effect.trans (State.transmit_quiet _ _))
    · exact .either effect (.refl s)
    · exact .either effect (.refl s)
    · exact .refl s
  · exact .refl s

theorem State.onChannel_quiet (c : Option Port) (act : Port → State → Taken) (effect : ∀ c, Quiet s (act c s).state) :
    Quiet s (s.onChannel c act).state := by
  cases c with
  | none => exact .refl s
  | some c => exact effect c

theorem State.hearArm_quiet (m : Heard) : Quiet s (s.hearArm m) := s.command_quiet _ _ _ _ _ _ m (s.arm_quiet m.payload)

theorem State.hearDisarm_quiet (m : Heard) : Quiet s (s.hearDisarm m) :=
  s.command_quiet _ _ _ _ _ _ m (s.onChannel_quiet _ _ s.disarm_quiet)

theorem State.hearCue_quiet (m : Heard) : Quiet s (s.hearCue m) :=
  s.command_quiet _ _ _ _ _ _ m (s.onChannel_quiet _ _ (s.cueCommand_quiet _))

theorem State.hearStop_quiet (m : Heard) : Quiet s (s.hearStop m) :=
  s.command_quiet _ _ _ _ _ _ m (s.onChannel_quiet _ _ s.stopCommand_quiet)

theorem State.hearCut_quiet (m : Heard) : Quiet s (s.hearCut m) :=
  s.command_quiet _ _ _ _ _ _ m (s.onChannel_quiet _ _ s.cutCommand_quiet)

theorem State.hearResetChannel_quiet (m : Heard) : Quiet s (s.hearResetChannel m) :=
  s.command_quiet _ _ _ _ _ _ m (s.onChannel_quiet _ _ s.resetChannelCommand_quiet)

theorem State.hearPreset_quiet (m : Heard) : Quiet s (s.hearPreset m) := s.command_quiet _ _ _ _ _ _ m (.of_stock rfl)

theorem State.hearResumeStore_quiet (m : Heard) : Quiet s (s.hearResumeStore m) :=
  s.command_quiet _ _ _ _ _ _ m s.resumeCommand_quiet

theorem State.hearResetStore_quiet (m : Heard) : Quiet s (s.hearResetStore m) :=
  s.command_quiet _ _ _ _ _ _ m s.resetStoreCommand_quiet

theorem State.hearQuery_quiet (m : Heard) : Quiet s (s.hearQuery m) := by
  have engine (d : Station) (clear : Bool) : Quiet s (s.queryEngine d clear) := by
    cases clear <;> exact .of_stock rfl
  have channel (d : Station) (clear : Bool) (c : Port) : Quiet s (s.queryChannel d clear c) := by
    cases clear <;> exact .of_stock rfl
  unfold State.hearQuery
  dsimp only
  split
  · split
    · split
      · exact .of_stock rfl
      · split
        · exact engine _ _
        · split
          · exact channel _ _ _
          · exact .of_stock rfl
    · exact .refl s
  · exact .refl s

theorem State.hearUnknown_quiet (kind : Byte) (m : Heard) : Quiet s (s.hearUnknown kind m) := by
  unfold State.hearUnknown
  split
  · split
    · exact .of_stock rfl
    · exact .refl s
  · exact .refl s

/-! ### The cue line (R159 to R168) -/

theorem State.removeSent_quiet : Quiet s s.removeSent := by
  unfold State.removeSent
  split
  · exact .of_stock rfl
  · exact .refl s

theorem State.abandonMessage_quiet : Quiet s s.abandonMessage := s.removeSent_quiet.trans (.of_stock rfl)

theorem State.waitIdle_quiet (n : Nat) : Quiet s (s.waitIdle n) := .of_stock rfl

theorem State.idleSend_quiet (gap : Nat) : Quiet s (s.idleSend gap) := by
  unfold State.idleSend
  split
  · split
    · split
      · split
        · exact .of_stock rfl
        · exact s.waitIdle_quiet _
      · exact s.waitIdle_quiet _
    · exact .refl s
  · exact .refl s
  · exact .refl s

theorem State.loseArbitration_quiet : Quiet s s.loseArbitration := .either (.of_stock rfl) (.refl s)

theorem State.takeClash_quiet : Quiet s s.takeClash :=
  .either (s.abandonMessage_quiet.trans (State.waitIdle_quiet _ _)) (.refl s)

theorem State.takeSent_quiet : Quiet s s.takeSent :=
  .either ((State.waitIdle_quiet _ _).after ((State.removeSent_quiet _).of_same rfl)) (.refl s)

theorem State.takeStuck_quiet (inArbitration : Bool) : Quiet s (s.takeStuck inArbitration) := by
  unfold State.takeStuck
  dsimp only
  split
  · refine (State.waitIdle_quiet _ _).after ?_
    split
    · exact .of_stock rfl
    · exact .of_stock rfl
    · exact .either (.of_stock rfl) ((State.abandonMessage_quiet _).of_same rfl)
  · exact .refl s

theorem State.takeMessage_quiet (kind : Byte) (m : Heard) : Quiet s (s.takeMessage kind m) := by
  unfold State.takeMessage
  exact .either (s.hearArm_quiet m) <| .either (s.hearDisarm_quiet m) <| .either (s.hearCue_quiet m) <|
    .either (s.hearStop_quiet m) <| .either (s.hearCut_quiet m) <| .either (s.hearResetChannel_quiet m) <|
    .either (s.hearPreset_quiet m) <| .either (s.hearResumeStore_quiet m) <| .either (s.hearResetStore_quiet m) <|
    .either (s.hearQuery_quiet m) <| .either (.refl s) <| .either (.refl s) <| .either (.refl s) <|
    .either (s.hearReport_quiet m) <| .either (s.takeStored_quiet ⟨m, false⟩) <|
    .either (s.hearUnstored_quiet m) <| .either (s.hearTakeover_quiet m) (s.hearUnknown_quiet kind m)

theorem State.hearFrame_quiet (bits : List Bool) : Quiet s (s.hearFrame bits) := by
  unfold State.hearFrame
  split
  · exact .of_stock rfl
  · exact (State.takeMessage_quiet _ _ _).of_same rfl

theorem State.lineFrame_quiet (gap : Nat) (bits : List Bool) : Quiet s (s.lineFrame gap bits) := by
  unfold State.lineFrame
  dsimp only
  split
  · split
    · exact .refl s
    · exact s.hearFrame_quiet _
    · split
      · exact s.waitIdle_quiet _
      · exact .either (s.hearFrame_quiet _) (s.waitIdle_quiet _)
  · exact .refl s

/-! ### Start-up (R171 to R174) -/

theorem State.endStartUp_quiet (cfg : Configuration) (source : Source) : Quiet s (s.endStartUp cfg source) := by
  have started : Quiet s ((s.configured cfg source).notice .start source.reason engineChannel 0#32) :=
    (State.notice_quiet _ _ _ _ _).of_same rfl
  exact .either (started.trans (State.haltStore_quiet _ _)) started

theorem State.configurationRead_quiet (image : List Byte) : Quiet s (s.configurationRead image) :=
  .either (.either (s.endStartUp_quiet _ _) (s.endStartUp_quiet _ _)) (.refl s)

/-- The reset state has an empty staging memory and a pool in order. -/
theorem State.assertReset_sound : Sound s s.assertReset := ⟨fun _ => rfl, fun _ => poolInOrder_reset.of_stock rfl⟩

/-! ### What a command keeps -/

/-- The commands that may write staging memory: reset, the commands that make a house tick, and a completion. -/
def mayWriteStaging (c : Instr) : Bool :=
  match c with
  | .powerOnReset => true
  | .referencePulse _ _ => true
  | .lossDeadlineExpiry _ _ => true
  | .flywheelTick _ _ => true
  | .coderCompletion _ => true
  | _ => false

/-- Every other command leaves staging memory as it is, and keeps the pool in order. -/
theorem exec_quiet (c : Instr) (h : mayWriteStaging c = false) : ∃ t, exec c s = .next t ∧ Quiet s t := by
  cases c with
  | powerOnReset => cases h
  | referencePulse time tick => cases h
  | lossDeadlineExpiry time tick => cases h
  | flywheelTick time tick => cases h
  | coderCompletion coded => cases h
  | configurationReadComplete image => exact ⟨_, rfl, s.configurationRead_quiet image⟩
  | configurationReadTimeout => exact ⟨_, rfl, .either (s.endStartUp_quiet _ _) (.refl s)⟩
  | resetRelease straps => exact ⟨_, rfl, .either (.of_stock rfl) (.refl s)⟩
  | preset m => exact ⟨_, rfl, s.hearPreset_quiet m⟩
  | headerJudged port bytes => exact ⟨_, rfl, s.hearLane_quiet port bytes⟩
  | frameComplete port bytes => exact ⟨_, rfl, s.hearLane_quiet port bytes⟩
  | frameWaitingTimerExpiry port => exact ⟨_, rfl, s.waitingExpiry_quiet port⟩
  | arm m => exact ⟨_, rfl, s.hearArm_quiet m⟩
  | disarm m => exact ⟨_, rfl, s.hearDisarm_quiet m⟩
  | cue m => exact ⟨_, rfl, s.hearCue_quiet m⟩
  | stop m => exact ⟨_, rfl, s.hearStop_quiet m⟩
  | cut m => exact ⟨_, rfl, s.hearCut_quiet m⟩
  | resetChannel m => exact ⟨_, rfl, s.hearResetChannel_quiet m⟩
  | holdOverExpiry port => exact ⟨_, rfl, s.takeHoldOver_quiet port⟩
  | drainTimerExpiry record => exact ⟨_, rfl, s.takeDrain_quiet record⟩
  | reportHeard m => exact ⟨_, rfl, s.hearReport_quiet m⟩
  | reportWindowExpiry record => exact ⟨_, rfl, s.windowExpiry_quiet record⟩
  | storedHeard m => exact ⟨_, rfl, s.takeStored_quiet m⟩
  | unstoredHeard m => exact ⟨_, rfl, s.hearUnstored_quiet m⟩
  | takeoverHeard m => exact ⟨_, rfl, s.hearTakeover_quiet m⟩
  | commitTimerExpiry record => exact ⟨_, rfl, s.commitExpiry_quiet record⟩
  | acknowledgement tag status => exact ⟨_, rfl, s.acknowledge_quiet tag status⟩
  | storeWaitingTimerExpiry tag => exact ⟨_, rfl, s.storeExpiry_quiet tag⟩
  | storeHaltAssert => exact ⟨_, rfl, s.haltAssert_quiet⟩
  | storeHaltRelease => exact ⟨_, rfl, .of_stock rfl⟩
  | resumeStore m => exact ⟨_, rfl, s.hearResumeStore_quiet m⟩
  | resetStore m => exact ⟨_, rfl, s.hearResetStore_quiet m⟩
  | cleared => exact ⟨_, rfl, s.clearedReceived_quiet⟩
  | clearTimerExpiry => exact ⟨_, rfl, s.clearExpiry_quiet⟩
  | storeLinkOtherType kind => exact ⟨_, rfl, .refl s⟩
  | lineIdleSend gap => exact ⟨_, rfl, s.idleSend_quiet gap⟩
  | lostArbitration => exact ⟨_, rfl, s.loseArbitration_quiet⟩
  | clash => exact ⟨_, rfl, s.takeClash_quiet⟩
  | messageSent => exact ⟨_, rfl, s.takeSent_quiet⟩
  | lineStuck inArbitration => exact ⟨_, rfl, s.takeStuck_quiet inArbitration⟩
  | cueLineFrame gap bits => exact ⟨_, rfl, s.lineFrame_quiet gap bits⟩
  | unknownKind kind m => exact ⟨_, rfl, s.takeMessage_quiet kind m⟩
  | query m => exact ⟨_, rfl, s.hearQuery_quiet m⟩
  | syncMarkerFound port bytes => exact ⟨_, rfl, s.hearLane_quiet port _⟩

/-- Every command keeps the canonical form of staging memory and the pool in order. -/
theorem exec_sound (c : Instr) : ∃ t, exec c s = .next t ∧ Sound s t := by
  cases writes : mayWriteStaging c with
  | false =>
    obtain ⟨t, next, quiet⟩ := exec_quiet s c writes
    exact ⟨t, next, quiet.sound⟩
  | true =>
    unfold mayWriteStaging at writes
    split at writes
    · exact ⟨_, rfl, s.assertReset_sound⟩
    · exact ⟨_, rfl, s.pulse_sound _ _⟩
    · exact ⟨_, rfl, s.lossOfReference_sound _ _⟩
    · exact ⟨_, rfl, s.flywheelStep_sound _ _⟩
    · exact ⟨_, rfl, s.complete_sound _⟩
    · cases writes

theorem step_sound (s t : State) (h : step s = .next t) : Sound s t := by
  cases waiting : s.pending with
  | nil =>
    rw [step, waiting] at h
    cases h
    exact .refl s
  | cons c rest =>
    rw [step, waiting] at h
    obtain ⟨u, next, kept⟩ := exec_sound { s with pending := rest } c
    rw [show exec c { s with pending := rest } = .next t from h] at next
    cases next
    exact Sound.trans (t := { s with pending := rest }) (Quiet.sound (.of_stock rfl)) kept

/-- Settles O56: a step keeps the canonical form (`step_sound`). -/
theorem memoryStaysCanonical : Obligations.MemoryStaysCanonical := fun s t wf h => (step_sound s t h).mem wf

/-- Settles O60: a step keeps the pool in order (`step_sound`). -/
theorem pagesStayOnOneList : Obligations.PagesStayOnOneList := fun s t inv h => (step_sound s t h).pool inv

end Sys2Proof.Machine
end

section
/-! PROOFS. The bytes of a stored PRESENT: where a page list puts the bytes of a stream, what a write of a stream leaves of
staging memory, and the frame that packing stores (R88, R110). -/

namespace Sys2Proof.Machine

/-! ### Streams of bytes over a page list -/

/-- Two bytes of a stream that both lie on listed pages stand at one address only when they are one byte. -/
theorem streamAddress_injective {pages : List Nat} (distinct : pages.Nodup) {x y : Nat}
    (hx : x / pageBytes < pages.length) (hy : y / pageBytes < pages.length)
    (same : streamAddress pages x = streamAddress pages y) : x = y := by
  unfold streamAddress at same
  rw [List.getD_eq_getElem _ _ hx, List.getD_eq_getElem _ _ hy] at same
  have page : pages[x / pageBytes] = pages[y / pageBytes] := by
    unfold pageBytes at same ⊢
    omega
  have index : x / pageBytes = y / pageBytes := (distinct.getElem_inj_iff).1 page
  unfold pageBytes at same index
  omega

/-- Bytes that a page list is long enough for lie on listed pages. -/
theorem div_pageBytes_lt {x bytes count : Nat} (h : x < bytes) (room : pagesFor bytes ≤ count) : x / pageBytes < count := by
  unfold pagesFor pageBytes at *
  omega

/-- Writing a stream leaves every byte that stands at none of its addresses. -/
theorem Memory.read_writeStream_of_ne (pages : List Nat) (x : Nat) (bytes : List Byte) (m : Memory) (wf : m.wf = true)
    (a : Nat) (other : ∀ k, k < bytes.length → a ≠ streamAddress pages (x + k)) :
    (m.writeStream pages x bytes).read a = m.read a := by
  induction bytes generalizing x m with
  | nil => rfl
  | cons b rest ih =>
    have first : a ≠ streamAddress pages x := other 0 (Nat.succ_pos _)
    have later (k : Nat) (hk : k < rest.length) : a ≠ streamAddress pages (x + 1 + k) := by
      rw [Nat.add_right_comm]
      exact other (k + 1) (Nat.succ_lt_succ hk)
    rw [Memory.writeStream, ih (x + 1) _ (Memory.write_wf m _ b wf) later, Memory.read_write m wf, if_neg first]

/-- A stream that is written over distinct pages, all of them listed, is read back byte for byte: a later byte of it goes to
another address. -/
theorem Memory.read_writeStream_of_getElem (pages : List Nat) (distinct : pages.Nodup) (x : Nat) (bytes : List Byte)
    (m : Memory) (wf : m.wf = true) (listed : ∀ k, k < bytes.length → (x + k) / pageBytes < pages.length)
    (k : Nat) (b : Byte) (h : bytes[k]? = some b) :
    (m.writeStream pages x bytes).read (streamAddress pages (x + k)) = b := by
  induction bytes generalizing x m k with
  | nil => cases h
  | cons first rest ih =>
    have wf' := Memory.write_wf m (streamAddress pages x) first wf
    have listed' (k : Nat) (hk : k < rest.length) : (x + 1 + k) / pageBytes < pages.length := by
      rw [Nat.add_right_comm]
      exact listed (k + 1) (Nat.succ_lt_succ hk)
    rw [Memory.writeStream]
    cases k with
    | zero =>
      have apart (k : Nat) (hk : k < rest.length) : streamAddress pages (x + 0) ≠ streamAddress pages (x + 1 + k) :=
        fun same => by
          have := streamAddress_injective distinct (listed 0 (Nat.succ_pos _)) (listed' k hk) same
          omega
      rw [Memory.read_writeStream_of_ne pages _ rest _ wf' _ apart, Memory.read_write m wf]
      exact (if_pos rfl).trans (Option.some.inj h)
    | succ k =>
      rw [← Nat.add_assoc, Nat.add_right_comm]
      exact ih (x + 1) _ wf' listed' k h

/-! ### Packing (R88) -/

variable (s : State)

theorem State.storeFrame_mem (i : RecIx) (start : Nat) (f : FrameRecord) :
    (s.storeFrame i start f).mem = s.mem.writeStream (s.record i).essPages start f.payload := rfl

theorem State.storeFrame_record (i : RecIx) (start : Nat) (f : FrameRecord) : (s.storeFrame i start f).record i =
    { s.record i with
      essBytes := (s.record i).essBytes + f.payload.length, sizes := (s.record i).sizes ++ [f.payload.length]
      timecode := (s.record i).timecode.or (some f.timecode) } := State.record_onRec_same _ i _

/-- A PRESENT that is packed into an OPEN record: its pages are listed and all its bytes lie on them, and nothing else of the
record or of memory has changed before the bytes are written. -/
theorem State.pack_success (i : RecIx) (f : FrameRecord) (opened : (s.record i).st = .opened) {t : State}
    (packed : s.pack i f = (t, true)) : ∃ (u : State) (pages : List Nat), t = u.storeFrame i (s.record i).essBytes f ∧ u.mem = s.mem ∧
      u.record i = (s.record i).withPages .essence pages ∧
      ∀ k, k < f.payload.length → ((s.record i).essBytes + k) / pageBytes < pages.length := by
  rcases s.pack_cases i f with ⟨u, request, pack⟩ | ⟨u, _, pack⟩
  · obtain ⟨taken, count, record⟩ := s.requestPages_record i _ _ (by rw [opened]; exact nofun) request
    refine ⟨u, _, congrArg Prod.fst (packed.symm.trans pack), s.mem_of_requestPages request, record, fun k hk => ?_⟩
    refine div_pageBytes_lt (Nat.add_lt_add_left hk _) ?_
    rw [List.length_append, count]
    exact Nat.sub_le_iff_le_add'.1 (Nat.le_refl _)
  · cases packed.symm.trans pack

theorem mayWriteStaging_iff (c : Instr) : mayWriteStaging c = true ↔ c = .powerOnReset ∨
    (∃ time tick, c = .referencePulse time tick ∨ c = .lossDeadlineExpiry time tick ∨ c = .flywheelTick time tick) ∨
    ∃ coded, c = .coderCompletion coded := by
  constructor
  · intro writes
    unfold mayWriteStaging at writes
    split at writes
    · exact .inl rfl
    · exact .inr (.inl ⟨_, _, .inl rfl⟩)
    · exact .inr (.inl ⟨_, _, .inr (.inl rfl)⟩)
    · exact .inr (.inl ⟨_, _, .inr (.inr rfl)⟩)
    · exact .inr (.inr ⟨_, rfl⟩)
    · cases writes
  · rintro (rfl | ⟨_, _, rfl | rfl | rfl⟩ | ⟨_, rfl⟩) <;> rfl

/-- Settles O29: the bytes of a packed frame by reading back a stream (`State.pack_success`), what a placement enters by the
equations of `appendPlacement`, and the rest of the commands by `exec_quiet`. -/
theorem stagingMemoryWrittenByPackingAlone : Obligations.StagingMemoryWrittenByPackingAlone := by
  unfold Obligations.StagingMemoryWrittenByPackingAlone
  refine ⟨fun s t i f wf opened packed => ?_, fun s c i f => ?_, fun s c i x opened => ?_,
    fun c s t next notReset notTick notCompletion => ?_⟩
  · obtain ⟨u, pages, rfl, mem, record, listed⟩ := s.pack_success i f opened packed
    rw [State.storeFrame_record, State.storeFrame_mem, mem, record]
    intro distinct
    exact ⟨fun k b h => Memory.read_writeStream_of_getElem pages distinct _ _ _ wf listed k b h,
      fun a other => Memory.read_writeStream_of_ne pages _ _ _ wf a other, rfl, rfl, rfl⟩
  · refine ⟨fun packed => ?_, fun failed => ?_, rfl, rfl⟩
    · rw [State.appendPlacement_present, if_pos packed]
      rfl
    · rw [State.appendPlacement_present, if_neg (by simp [failed])]
      rfl
  · exact (s.appendPlacement_record c i x (by rw [opened]; exact nofun)).2
  · have silent : mayWriteStaging c = false := by
      rw [← Bool.not_eq_true, mayWriteStaging_iff]
      rintro (reset | ⟨time, tick, pulse⟩ | ⟨coded, completion⟩)
      · exact notReset reset
      · obtain ⟨notPulse, notLoss, notFlywheel⟩ := notTick time tick
        rcases pulse with pulse | loss | flywheel
        · exact notPulse pulse
        · exact notLoss loss
        · exact notFlywheel flywheel
      · exact notCompletion coded completion
    obtain ⟨u, nextU, quiet⟩ := exec_quiet s c silent
    cases next.symm.trans nextU
    exact quiet.mem

end Sys2Proof.Machine
end

section
/-! PROOFS. Browse copies: the quantiser and its range, what the coder, the selector, a completion and the expiry of a drain
timer each leave, case by case (R100 to R113). Every equation is of whole states, so it also says what stays. -/

namespace Sys2Proof.Machine

variable (s : State)

/-! ### The quantiser (R106) -/

theorem qMin_le_quantiser (x : Selector) : x.qMin ≤ quantiser x := Nat.le_add_right _ _

/-- A fullness within the bucket takes at most the whole of the range above q_min. -/
theorem quantiser_le_qMax (x : Selector) (range : x.qMin ≤ x.qMax) (full : x.fullness ≤ x.bucket) :
    quantiser x ≤ x.qMax := by
  have share : (x.qMax - x.qMin) * x.fullness / x.bucket ≤ x.qMax - x.qMin :=
    Nat.div_le_of_le_mul (by rw [Nat.mul_comm x.bucket]; exact Nat.mul_le_mul_left _ full)
  calc quantiser x ≤ x.qMin + (x.qMax - x.qMin) := Nat.add_le_add_left share _
    _ = x.qMax := Nat.add_sub_cancel' range

/-! ### The coder (R104, R105) -/

theorem State.startCoder_of_idle {j : Job} {rest : List Job} (coder : s.browse.coder = .idle)
    (jobs : s.browse.jobs = j :: rest) : s.startCoder =
      { s with browse := { s.browse with coder := .coding (quantiser (s.chan j.channel).sel) } } := by
  simp only [State.startCoder, coder, jobs]

theorem State.startCoder_of_coding {q : Nat} (coder : s.browse.coder = .coding q) : s.startCoder = s := by
  simp only [State.startCoder, coder]

theorem State.startCoder_of_no_jobs (jobs : s.browse.jobs = []) : s.startCoder = s := by
  cases coder : s.browse.coder with
  | idle => simp only [State.startCoder, coder, jobs]
  | coding q => exact s.startCoder_of_coding coder

/-- The last job leaves the queue: the coder is IDLE. -/
theorem State.nextJob_of_last {j : Job} (jobs : s.browse.jobs = [j]) :
    s.nextJob = { s with browse := { jobs := [], coder := .idle } } := by
  rw [State.nextJob_eq, jobs]
  exact State.startCoder_of_no_jobs _ rfl

/-- The head job leaves the queue: the coder takes the job behind it. -/
theorem State.nextJob_of_waiting {j k : Job} {rest : List Job} (jobs : s.browse.jobs = j :: k :: rest) :
    s.nextJob =
      { s with browse := { jobs := k :: rest, coder := .coding (quantiser (s.chan k.channel).sel) } } := by
  rw [State.nextJob_eq, jobs]
  exact State.startCoder_of_idle _ rfl rfl

/-! ### Selection (R100 to R103) -/

theorem State.selectPresent_of_room (c : Port) (i : RecIx) (offset length : Nat) (room : s.browse.jobs.length < 12) :
    s.selectPresent c i offset length = State.startCoder
      (State.onRec i (fun r => { r with entries := r.entries ++ [.reserved], pendingJobs := r.pendingJobs + 1 })
        { s with browse := { s.browse with jobs := s.browse.jobs ++ [(s.record i).newJob c i offset length] } }) := by
  have oneUpdate := s.onRec_onRec i (fun r => { r with entries := r.entries ++ [.reserved] })
    fun r => { r with pendingJobs := r.pendingJobs + 1 }
  refine (if_pos room).trans ?_
  simp only [State.appendEntry, oneUpdate]
  rfl

theorem State.selectPresent_of_full (c : Port) (i : RecIx) (offset length : Nat) (full : 12 ≤ s.browse.jobs.length) :
    s.selectPresent c i offset length = (s.appendEntry i .skip).countSkip c :=
  if_neg (Nat.not_lt.2 full)

theorem State.offer_of_short (c : Port) (i : RecIx) (frame : Option (Nat × Nat))
    (short : (s.chan c).sel.a + (s.chan c).sel.n < (s.chan c).sel.d) :
    s.offer c i frame = s.onSel c fun x => { x with a := x.a + x.n } :=
  if_neg (Nat.not_le.2 short)

/-- A selection takes d off the raised accumulator (R101). -/
def Selector.taken (x : Selector) : Selector := { x with a := x.a + x.n - x.d }

theorem State.offer_none_of_reached (c : Port) (i : RecIx)
    (reached : (s.chan c).sel.d ≤ (s.chan c).sel.a + (s.chan c).sel.n) :
    s.offer c i none = (s.onSel c Selector.taken).appendEntry i .hold :=
  if_pos reached

theorem State.offer_some_of_reached (c : Port) (i : RecIx) (offset length : Nat)
    (reached : (s.chan c).sel.d ≤ (s.chan c).sel.a + (s.chan c).sel.n) :
    s.offer c i (some (offset, length)) =
      (s.onSel c Selector.taken).selectPresent c i offset length :=
  if_pos reached

/-! ### Completions (R108 to R111) -/

theorem exec_coderCompletion (coded : List Byte) : exec (.coderCompletion coded) s = .next (s.complete coded) := rfl

theorem State.complete_of_withdrawn (coded : List Byte) {q : Nat} {j : Job} {rest : List Job}
    (coder : s.browse.coder = .coding q) (jobs : s.browse.jobs = j :: rest) (withdrawn : j.withdrawn = true) :
    s.complete coded = s.nextJob := by
  simp only [State.complete, coder, jobs, if_pos withdrawn]

/-- What follows once a job's frame has been skipped or kept: the pending count falls, the coder takes the next job, and the
record may be close complete (steps 1 to 4 of R111). -/
def State.jobSettled (i : RecIx) (s : State) : State :=
  State.closeIfDrained i (s.onRec i fun r => { r with pendingJobs := r.pendingJobs - 1 }).nextJob

theorem State.complete_of_standing (coded : List Byte) {q : Nat} {j : Job} {rest : List Job}
    (coder : s.browse.coder = .coding q) (jobs : s.browse.jobs = j :: rest) (standing : j.withdrawn = false) :
    s.complete coded = (s.settleJob j coded).jobSettled j.record := by
  have notWithdrawn : ¬ j.withdrawn = true := by simp [standing]
  simp only [State.complete, coder, jobs, if_neg notWithdrawn, State.jobSettled]

/-- The count of the skip and the drain of the budget are one change of the selector (R109, R110). -/
theorem State.settleSkip_eq (j : Job) : s.settleSkip j =
    State.onSel j.channel (fun x => { x with skips := min 65535 (x.skips + 1), fullness := x.fullness - x.target })
      (s.onRec j.record fun r => { r with entries := r.entries.set j.entry .skip }) :=
  State.onSel_onSel (s.setEntry j.record j.entry .skip) j.channel (fun x => { x with skips := satInc x.skips })
    fun x => { x with fullness := x.fullness - x.target }

/-- The byte count and the entry of a kept frame are one change of the record (R110). -/
theorem State.storeCoded_eq (j : Job) (start : Nat) (coded : List Byte) : s.storeCoded j start coded =
    State.onSel j.channel (fun x => { x with fullness := x.fullness + coded.length - x.target })
      (State.onRec j.record (fun r =>
        { r with brwBytes := r.brwBytes + coded.length, entries := r.entries.set j.entry (.size coded.length) })
        (s.setMem (s.mem.writeStream (s.record j.record).brwPages start coded))) := by
  have oneUpdate := State.onRec_onRec (s.setMem (s.mem.writeStream (s.record j.record).brwPages start coded)) j.record
    (fun r => { r with brwBytes := r.brwBytes + coded.length })
    fun r => { r with entries := r.entries.set j.entry (.size coded.length) }
  simp only [State.storeCoded, State.setEntry, oneUpdate]

theorem State.settleJob_of_overflow (j : Job) (coded : List Byte)
    (overflow : (s.chan j.channel).sel.bucket + (s.chan j.channel).sel.target <
      (s.chan j.channel).sel.fullness + coded.length) : s.settleJob j coded = s.settleSkip j :=
  if_pos overflow

theorem State.settleJob_of_fits (j : Job) (coded : List Byte)
    (fits : (s.chan j.channel).sel.fullness + coded.length ≤
      (s.chan j.channel).sel.bucket + (s.chan j.channel).sel.target) : s.settleJob j coded = s.settleKeep j coded :=
  if_neg (Nat.not_lt.2 fits)

/-- The request for the browse pages that a coded frame of a job still needs (R110). -/
def State.requestCoded (j : Job) (coded : List Byte) (s : State) : State × Bool :=
  s.requestPages j.record .browse
    (pagesFor ((s.record j.record).brwBytes + coded.length) - (s.record j.record).brwPages.length)

/-- A kept frame is stored when its pages are found, and skipped otherwise (R110). -/
theorem State.settleKeep_eq (j : Job) (coded : List Byte) : s.settleKeep j coded =
    if (s.requestCoded j coded).2 = true then
      (s.requestCoded j coded).1.storeCoded j (s.record j.record).brwBytes coded
    else (s.requestCoded j coded).1.settleSkip j := by
  rw [State.settleKeep.eq_1, State.requestCoded]
  split
  · rename_i t request
    rw [request, if_pos rfl]
    rfl
  · rename_i t request
    rw [request, if_neg nofun]

theorem State.closeIfDrained_of_drained (i : RecIx) (closing : (s.record i).st = .closing)
    (settled : (s.record i).pendingJobs = 0) : s.closeIfDrained i = s.closeComplete i :=
  if_pos ⟨closing, settled⟩

theorem State.closeIfDrained_of_not_drained (i : RecIx)
    (h : (s.record i).st ≠ .closing ∨ (s.record i).pendingJobs ≠ 0) : s.closeIfDrained i = s :=
  if_neg (not_and_or.2 h)

/-! ### Expiry of a drain timer (R112, R113) -/

theorem exec_drainTimerExpiry (i : RecIx) : exec (.drainTimerExpiry i) s = .next (s.takeDrain i) := rfl

theorem State.takeDrain_of_due (i : RecIx) (closing : (s.record i).st = .closing)
    (due : (s.record i).drainTimer = some 0) : s.takeDrain i = (s.skipJobs i).closeComplete i := by
  rw [← State.drainExpiry_eq]
  exact if_pos ⟨closing, (Timer.due_iff _).2 due⟩

/-- A job already withdrawn is marked again without a change, so that only its record decides. -/
theorem Job.withdraw_eq (i : RecIx) (j : Job) :
    (if j.pendingFor i = true then { j with withdrawn := true } else j) =
      if j.record = i then { j with withdrawn := true } else j := by
  by_cases mine : j.record = i
  · cases withdrawn : j.withdrawn with
    | false => rw [if_pos ((j.pendingFor_iff i).2 ⟨mine, withdrawn⟩), if_pos mine]
    | true => rw [if_pos mine, ← withdrawn, ite_self]
  · rw [if_neg fun pending => mine ((j.pendingFor_iff i).1 pending).1, if_neg mine]

/-- With a job in progress, that job stays in the queue and the record's other jobs leave it (R113, R114). -/
theorem withdrawJobs_of_coding (i : RecIx) {b : BrowseUnit} {q : Nat} {j : Job} {rest : List Job}
    (coder : b.coder = .coding q) (jobs : b.jobs = j :: rest) :
    withdrawJobs i b = (if j.record = i then { j with withdrawn := true } else j) ::
      rest.filter fun x => !x.pendingFor i := by
  simp only [withdrawJobs, coder, jobs, Job.withdraw_eq]

/-! ### The statements -/

/-- Settles O31: the bounds of the quantiser, and the equation of each case of an offer and of the coder's start. -/
theorem quantiserWithinItsRange : Obligations.QuantiserWithinItsRange := by
  unfold Obligations.QuantiserWithinItsRange
  refine ⟨fun x range full => ⟨rfl, qMin_le_quantiser x, quantiser_le_qMax x range full⟩, fun s c i frame => ?_,
    fun s => ⟨fun j rest => s.startCoder_of_idle, ?_⟩⟩
  · refine ⟨s.offer_of_short c i frame, ?_, ?_⟩
    · rintro reached rfl
      exact s.offer_none_of_reached c i reached
    · rintro offset length reached rfl
      rw [s.offer_some_of_reached c i offset length reached]
      exact ⟨(s.onSel c Selector.taken).selectPresent_of_full c i offset length,
        (s.onSel c Selector.taken).selectPresent_of_room c i offset length⟩
  · rintro (busy | none)
    · cases coder : s.browse.coder with
      | idle => exact absurd coder busy
      | coding q => exact s.startCoder_of_coding coder
    · exact s.startCoder_of_no_jobs none

/-- Settles O32: a withdrawn job only makes room for the next one. -/
theorem withdrawnCompletionDiscarded : Obligations.WithdrawnCompletionDiscarded := by
  unfold Obligations.WithdrawnCompletionDiscarded
  intro s q j rest coded coder jobs withdrawn
  rw [exec_coderCompletion, s.complete_of_withdrawn coded coder jobs withdrawn]
  cases rest with
  | nil => rw [s.nextJob_of_last jobs]
  | cons k rest =>
    rw [s.nextJob_of_waiting jobs]
    rfl

/-- Settles O33: the three ways to settle a job that stands (overflow, no pages, kept), each before the steps that all
completions end with. -/
theorem completionSettled : Obligations.CompletionSettled := by
  unfold Obligations.CompletionSettled
  refine ⟨fun s q j rest coded coder jobs standing => ?_,
    fun s i => ⟨s.closeIfDrained_of_drained i, s.closeIfDrained_of_not_drained i⟩, State.nextJob_eq⟩
  rw [exec_coderCompletion, s.complete_of_standing coded coder jobs standing]
  refine ⟨fun overflow => ?_, fun fits => ⟨fun (missing : (s.requestCoded j coded).2 = false) => ?_,
    fun (found : (s.requestCoded j coded).2 = true) => ?_⟩⟩
  · rw [s.settleJob_of_overflow j coded overflow, State.settleSkip_eq]
    rfl
  · rw [s.settleJob_of_fits j coded fits, s.settleKeep_eq, if_neg (ne_true_of_eq_false missing), State.settleSkip_eq]
    rfl
  · rw [s.settleJob_of_fits j coded fits, s.settleKeep_eq, if_pos found, State.storeCoded_eq]
    rfl

/-- Settles O34: the jobs that the expiry withdraws are the record's, and its close is complete after them. -/
theorem drainTimerExpires : Obligations.DrainTimerExpires := by
  unfold Obligations.DrainTimerExpires
  intro s i q j rest closing due coder jobs
  rw [exec_drainTimerExpiry, s.takeDrain_of_due i closing due, State.skipJobs, State.withdraw,
    withdrawJobs_of_coding i coder jobs, jobs]
  rfl

end Sys2Proof.Machine
end

section
/-! PROOFS. Copy arbitration: the rank order and the peer list, and what each twin message heard, the decision and a takeover
leave, case by case (R119 to R135). Every equation is of whole states, so it also says what stays. -/

namespace Sys2Proof.Machine

/-! ### Rank order (R124) -/

theorem ranksBefore_iff (a b : Peer) : ranksBefore a b = true ↔
    a.damage < b.damage ∨ a.damage = b.damage ∧ a.station < b.station := by
  simp [ranksBefore]

theorem ranksBefore_trans {a b c : Peer} (h : ranksBefore a b = true) (h' : ranksBefore b c = true) :
    ranksBefore a c = true := by
  rw [ranksBefore_iff] at *
  bv_omega

/-- The copies of two stations are never of one rank: the lower station breaks a tie. -/
theorem ranksBefore_of_not {a b : Peer} (apart : a.station ≠ b.station) (h : ¬ ranksBefore a b = true) :
    ranksBefore b a = true := by
  rw [ranksBefore_iff] at *
  bv_omega

/-! ### The peer list (R122) -/

theorem insertPeer_eq_orderedInsert (p : Peer) (l : List Peer) :
    insertPeer p l = l.orderedInsert (fun a b => ranksBefore a b = true) p := by
  induction l with
  | nil => rfl
  | cons x rest ih => rw [insertPeer, List.orderedInsert_cons, ih]

theorem insertPeer_perm (p : Peer) (l : List Peer) : (insertPeer p l).Perm (p :: l) := by
  rw [insertPeer_eq_orderedInsert]
  exact List.perm_orderedInsert _ p l

theorem insertPeer_stations {p : Peer} {l : List Peer} (fresh : ∀ x ∈ l, x.station ≠ p.station)
    (apart : l.Pairwise fun a b => a.station ≠ b.station) :
    (insertPeer p l).Pairwise fun a b => a.station ≠ b.station :=
  ((insertPeer_perm p l).pairwise_iff fun h => h.symm).2 (List.pairwise_cons.2 ⟨fun x hx => (fresh x hx).symm, apart⟩)

theorem insertPeer_ranked {p : Peer} {l : List Peer} (fresh : ∀ x ∈ l, x.station ≠ p.station)
    (ranked : l.Pairwise fun a b => ranksBefore a b = true) :
    (insertPeer p l).Pairwise fun a b => ranksBefore a b = true := by
  induction l with
  | nil => exact List.pairwise_singleton _ p
  | cons x rest ih =>
    obtain ⟨first, ranked'⟩ := List.pairwise_cons.1 ranked
    obtain ⟨freshHead, fresh'⟩ := List.forall_mem_cons.1 fresh
    rw [insertPeer]
    split
    case isTrue before =>
      exact List.pairwise_cons.2 ⟨List.forall_mem_cons.2 ⟨before, fun y hy => ranksBefore_trans before (first y hy)⟩, ranked⟩
    case isFalse behind =>
      refine List.pairwise_cons.2 ⟨fun y hy => ?_, ih fresh' ranked'⟩
      rcases List.mem_cons.1 ((insertPeer_perm p rest).mem_iff.1 hy) with rfl | old
      · exact ranksBefore_of_not freshHead.symm behind
      · exact first y old

theorem enterPeer_of_known {p : Peer} {l : List Peer} (known : ∃ x ∈ l, x.station = p.station) : enterPeer p l = l :=
  if_pos (by simpa using known)

theorem enterPeer_of_fresh {p : Peer} {l : List Peer} (fresh : ∀ x ∈ l, x.station ≠ p.station) :
    enterPeer p l = (insertPeer p l).take 3 :=
  if_neg (by simpa using fresh)

/-- With room in the list nothing is dropped. -/
theorem enterPeer_perm_of_room {p : Peer} {l : List Peer} (fresh : ∀ x ∈ l, x.station ≠ p.station)
    (room : l.length < 3) : (enterPeer p l).Perm (p :: l) := by
  have few : (insertPeer p l).length ≤ 3 := (insertPeer_perm p l).length_eq.trans_le room
  rw [enterPeer_of_fresh fresh, List.take_of_length_le few]
  exact insertPeer_perm p l

/-- Of four entries one goes, and every entry that stays ranks before it. -/
theorem enterPeer_of_full {p : Peer} {l : List Peer} (fresh : ∀ x ∈ l, x.station ≠ p.station)
    (ranked : l.Pairwise fun a b => ranksBefore a b = true) (full : l.length = 3) :
    ∃ w, (w :: enterPeer p l).Perm (p :: l) ∧ ∀ x ∈ enterPeer p l, ranksBefore x w = true := by
  have four : (insertPeer p l).length = 4 := by rw [(insertPeer_perm p l).length_eq, List.length_cons, full]
  obtain ⟨w, last⟩ : ∃ w, (insertPeer p l).drop 3 = [w] :=
    List.length_eq_one_iff.1 (by rw [List.length_drop, four])
  have parts : (insertPeer p l).take 3 ++ [w] = insertPeer p l := by rw [← last, List.take_append_drop]
  rw [enterPeer_of_fresh fresh]
  refine ⟨w, ?_, fun x hx => ?_⟩
  · calc (w :: (insertPeer p l).take 3).Perm ((insertPeer p l).take 3 ++ [w]) := (List.perm_append_singleton w _).symm
      _ = insertPeer p l := parts
      List.Perm _ (p :: l) := insertPeer_perm p l
  · have inOrder := insertPeer_ranked fresh ranked
    rw [← parts, List.pairwise_append] at inOrder
    obtain ⟨-, -, before⟩ := inOrder
    exact before x hx w (List.mem_singleton_self w)

variable (s : State)

/-! ### Commands as the operations they call -/

theorem exec_reportHeard (m : Heard) : exec (.reportHeard m) s = .next (s.hearReport m) := rfl

theorem exec_reportWindowExpiry (i : RecIx) : exec (.reportWindowExpiry i) s = .next (s.windowExpiry i) := rfl

theorem exec_unstoredHeard (m : Heard) : exec (.unstoredHeard m) s = .next (s.hearUnstored m) := rfl

theorem exec_takeoverHeard (m : Heard) : exec (.takeoverHeard m) s = .next (s.hearTakeover m) := rfl

theorem exec_commitTimerExpiry (i : RecIx) : exec (.commitTimerExpiry i) s = .next (s.commitExpiry i) := rfl

theorem exec_storedHeard (m : Heard) (together : Bool) :
    exec (.storedHeard { heard := m, together := together }) s =
      .next (if together = true then (s.hearStored m).issue else s.hearStored m) := rfl

/-! ### Twin messages of a feed (R119) -/

section heard

variable {s : State} {m : Heard} {f : FeedId}

theorem State.twinKey_of_feed {need : Nat} (accepted : s.accepts m = true) (target : m.target = .feed f)
    (enough : need ≤ m.payload.length) : s.twinKey need m = some (parseKey m.payload) := by
  simp only [State.twinKey, target]
  exact if_pos ⟨accepted, enough⟩

theorem State.hearReport_of_feed (accepted : s.accepts m = true) (target : m.target = .feed f)
    (enough : 17 ≤ m.payload.length) : s.hearReport m =
      s.peerReport (parseKey m.payload) { station := m.sender, damage := field m.payload 14 2 } := by
  simp only [State.hearReport, State.twinKey_of_feed accepted target enough]

theorem State.hearStored_of_feed (accepted : s.accepts m = true) (target : m.target = .feed f)
    (enough : 12 ≤ m.payload.length) : s.hearStored m = s.storedFor (parseKey m.payload) := by
  simp only [State.hearStored, State.twinKey_of_feed accepted target enough]

theorem State.hearUnstored_of_feed (accepted : s.accepts m = true) (target : m.target = .feed f)
    (enough : 12 ≤ m.payload.length) : s.hearUnstored m = s.unstoredFor (parseKey m.payload) m.sender := by
  simp only [State.hearUnstored, State.twinKey_of_feed accepted target enough]

theorem State.hearTakeover_of_feed (accepted : s.accepts m = true) (target : m.target = .feed f)
    (enough : 12 ≤ m.payload.length) : s.hearTakeover m = s.takeoverFor (parseKey m.payload) m.sender := by
  simp only [State.hearTakeover, State.twinKey_of_feed accepted target enough]

end heard

/-! ### Reports (R120, R121) -/

theorem takesReports_iff (st : RecState) :
    takesReports st = true ↔ st = .opened ∨ st = .closing ∨ st = .deciding := by
  cases st <;> simp [takesReports]

section reports

variable {s : State} {key : Key} {i : RecIx} (p : Peer)

theorem State.peerReport_of_unmatched (unknown : s.findKey key = none) : s.peerReport key p =
    { s with arb := { s.arb with unmatched := min 65535 (s.arb.unmatched + 1) } } := by
  simp only [State.peerReport, unknown]
  rfl

theorem State.peerReport_of_untwinned (found : s.findKey key = some i) (untwinned : (s.record i).twin = false) :
    s.peerReport key p = s := by
  simp [State.peerReport, found, untwinned]

theorem State.peerReport_of_open (found : s.findKey key = some i) (twinned : (s.record i).twin = true)
    (undecided : takesReports (s.record i).st = true) :
    s.peerReport key p = s.onRec i fun r => { r with peers := enterPeer p r.peers } := by
  simp [State.peerReport, found, twinned, undecided]

theorem State.peerReport_of_late (found : s.findKey key = some i) (twinned : (s.record i).twin = true)
    (late : takesReports (s.record i).st = false) :
    s.peerReport key p = { s with arb := { s.arb with lateReport := min 65535 (s.arb.lateReport + 1) } } := by
  simp [State.peerReport, found, twinned, late, satInc, satAdd]

end reports

/-! ### The decision (R123 to R125) -/

theorem State.windowExpiry_of_due {i : RecIx} (deciding : (s.record i).st = .deciding)
    (due : (s.record i).windowTimer = some 0) : s.windowExpiry i = s.decideRecord i :=
  if_pos ⟨deciding, (Timer.due_iff _).2 due⟩

/-- The copies ahead of a record, with this station's number known. -/
theorem State.peersAhead_of_station {n : Station} (known : s.status.station = some n) (r : Record) :
    s.peersAhead r = r.peers.filter fun p =>
      decide (p.damage < r.damage) || (decide (p.damage = r.damage) && decide (p.station < n)) := by
  simp only [State.peersAhead, State.ownCopy, State.stationNumber, known]
  rfl

theorem State.decideRecord_of_best {i : RecIx} (best : s.peersAhead (s.record i) = []) : s.decideRecord i =
    State.joinWriteQueue i (s.onRec i fun r =>
      { r with windowTimer := none, decisionTime := some s.ref.count, peers := [] }) :=
  if_pos best

theorem State.decideRecord_of_behind {i : RecIx} (behind : s.peersAhead (s.record i) ≠ []) : s.decideRecord i =
    s.onRec i fun r =>
      { r with
        windowTimer := none, decisionTime := some s.ref.count, peers := [], st := .held,
        ahead := (s.peersAhead (s.record i)).map Peer.station,
        commitTimer := some (s.status.cfg.cw * (s.peersAhead (s.record i)).length) } :=
  (if_neg behind).trans (s.onRec_onRec i _ _)

/-! ### STORED heard (R128, R133 to R135) -/

section stored

variable {s : State} {key : Key} {i : RecIx}

theorem State.storedFor_of_unmatched (unknown : s.findKey key = none) : s.storedFor key = s := by
  simp only [State.storedFor, unknown]

theorem State.storedFor_of_recording (found : s.findKey key = some i)
    (recording : (s.record i).st = .opened ∨ (s.record i).st = .closing) :
    s.storedFor key = s.onRec i fun r => { r with storedElsewhere := true } := by
  rcases recording with st | st <;> simp only [State.storedFor, found, st]

theorem State.storedFor_of_undecided (found : s.findKey key = some i)
    (undecided : (s.record i).st = .deciding ∨ (s.record i).st = .held) : s.storedFor key = s.freeRecord i := by
  rcases undecided with st | st <;> simp only [State.storedFor, found, st]

theorem State.storedFor_of_queued (found : s.findKey key = some i) (queued : (s.record i).st = .queued) :
    s.storedFor key = (s.leaveWriteQueue i).freeRecord i := by
  simp only [State.storedFor, found, queued]

theorem State.storedFor_of_storing (found : s.findKey key = some i)
    (storing : (s.record i).st = .writing ∨ (s.record i).st = .indexing) : s.storedFor key = s := by
  rcases storing with st | st <;> simp only [State.storedFor, found, st]

end stored

/-! ### Takeover (R131, R132) -/

/-- A record that takes over: announced by TAKEOVER, and at the tail of the write queue. -/
def State.queueTakeover (i : RecIx) (s : State) : State :=
  State.joinWriteQueue i (State.transmit (.takeover (s.record i).key)
    (s.onRec i fun r => { r with commitTimer := none, ahead := [], takenOver := true }))

/-- A message joins the transmit queue without a look at the records. -/
theorem State.transmit_onRec (m : Message) (i : RecIx) (f : Record → Record) :
    (s.onRec i f).transmit m = (s.transmit m).onRec i f := rfl

/-- The marks of a takeover before and after its message are one change of the record. -/
theorem State.takeOver_eq (i : RecIx) : s.takeOver i =
    { s.queueTakeover i with
      arb := { (s.queueTakeover i).arb with takeovers := min 65535 ((s.queueTakeover i).arb.takeovers + 1) } } := by
  simp only [State.takeOver, State.queueTakeover, State.record_onRec_same, State.transmit_onRec, State.onRec_onRec, satInc,
    satAdd]

/-- A takeover empties the ahead list, whatever stood in it. -/
theorem State.takeOver_onRec_ahead (i : RecIx) (f : List Station → List Station) :
    (s.onRec i fun r => { r with ahead := f r.ahead }).takeOver i = s.takeOver i := by
  have queued : (s.onRec i fun r => { r with ahead := f r.ahead }).queueTakeover i = s.queueTakeover i := by
    simp only [State.queueTakeover, State.onRec_onRec, State.record_onRec_same]
  rw [State.takeOver_eq, State.takeOver_eq, queued]

theorem State.commitExpiry_of_failed (i : RecIx) (failed : s.link.st = .failed) : s.commitExpiry i = s :=
  if_neg fun ⟨_, _, unfailed⟩ => unfailed failed

theorem State.commitExpiry_of_due {i : RecIx} (held : (s.record i).st = .held)
    (due : (s.record i).commitTimer = some 0) (unfailed : s.link.st ≠ .failed) : s.commitExpiry i = s.takeOver i :=
  if_pos ⟨held, (Timer.due_iff _).2 due, unfailed⟩

/-! ### UNSTORED and TAKEOVER heard (R129, R130) -/

section announcements

variable {s : State} {key : Key} {station : Station} {i : RecIx}

theorem State.waitsOn_of_ahead (found : s.findKey key = some i) (held : (s.record i).st = .held)
    (ahead : station ∈ (s.record i).ahead) : s.waitsOn key station = some i := by
  simp [State.waitsOn, found, held, ahead]

theorem State.waitsOn_eq_none
    (h : ∀ i, s.findKey key = some i → (s.record i).st = .held → station ∉ (s.record i).ahead) :
    s.waitsOn key station = none := by
  rw [State.waitsOn, Option.filter_eq_none_iff]
  intro i found
  simpa using h i found

theorem State.unstoredFor_of_none (unmatched : s.waitsOn key station = none) : s.unstoredFor key station = s := by
  simp only [State.unstoredFor, unmatched]

theorem State.takeoverFor_of_none (unmatched : s.waitsOn key station = none) : s.takeoverFor key station = s := by
  simp only [State.takeoverFor, unmatched]

theorem State.takeoverFor_of_waiting (waits : s.waitsOn key station = some i) :
    s.takeoverFor key station = s.onRec i fun r => { r with commitTimer := some s.status.cfg.cw } := by
  simp only [State.takeoverFor, waits]

theorem State.unstoredFor_of_last (waits : s.waitsOn key station = some i)
    (last : (s.record i).ahead.filter (· != station) = []) : s.unstoredFor key station = s.takeOver i := by
  simp only [State.unstoredFor, waits, State.record_onRec_same, if_pos last]
  exact s.takeOver_onRec_ahead i fun l => l.filter (· != station)

theorem State.unstoredFor_of_more (waits : s.waitsOn key station = some i)
    (more : (s.record i).ahead.filter (· != station) ≠ []) : s.unstoredFor key station = s.onRec i fun r =>
      { r with ahead := (s.record i).ahead.filter (· != station), commitTimer := some s.status.cfg.cw } := by
  simp only [State.unstoredFor, waits, State.record_onRec_same, if_neg more, State.onRec_onRec]
  exact s.onRec_congr i rfl

end announcements

/-! ### The statements -/

/-- Settles O35: no record of the key, twin mode off, a record still undecided, and one decided before. -/
theorem reportHeardByState : Obligations.ReportHeardByState := by
  unfold Obligations.ReportHeardByState
  intro s m f accepted target enough p
  rw [exec_reportHeard, State.hearReport_of_feed accepted target enough]
  refine ⟨fun unknown => ?_, fun i found => ⟨fun untwinned => ?_, fun twinned => ⟨fun undecided => ?_, fun late => ?_⟩⟩⟩
  · rw [State.peerReport_of_unmatched _ unknown]
  · rw [State.peerReport_of_untwinned _ found untwinned]
  · rw [State.peerReport_of_open _ found twinned ((takesReports_iff _).2 undecided)]
  · have decided : takesReports (s.record i).st = false := by
      rcases late with st | st | st | st <;> rw [st] <;> rfl
    rw [State.peerReport_of_late _ found twinned decided]

/-- Settles O36: a known station's report leaves the list; a new one is inserted at its rank before the list is cut to 3. -/
theorem peerListKeepsTheBest : Obligations.PeerListKeepsTheBest := by
  unfold Obligations.PeerListKeepsTheBest
  intro p l short apart ranked
  have kept : (enterPeer p l).length ≤ 3 ∧ (enterPeer p l).Pairwise (fun a b => a.station ≠ b.station) ∧
      (enterPeer p l).Pairwise (fun a b => ranksBefore a b = true) := by
    by_cases known : ∃ x ∈ l, x.station = p.station
    · rw [enterPeer_of_known known]
      exact ⟨short, apart, ranked⟩
    · have fresh : ∀ x ∈ l, x.station ≠ p.station := fun x hx same => known ⟨x, hx, same⟩
      rw [enterPeer_of_fresh fresh]
      exact ⟨List.length_take_le 3 _, (insertPeer_stations fresh apart).take, (insertPeer_ranked fresh ranked).take⟩
  obtain ⟨length, stations, ranks⟩ := kept
  exact ⟨length, stations, ranks, enterPeer_of_known, enterPeer_perm_of_room, fun fresh => enterPeer_of_full fresh ranked⟩

/-- Settles O37: the copies ahead of this station's decide between the write queue and HELD. -/
theorem reportWindowDecides : Obligations.ReportWindowDecides := by
  unfold Obligations.ReportWindowDecides
  intro s i n known deciding due r better
  have ahead : s.peersAhead (s.record i) = better := s.peersAhead_of_station known r
  rw [exec_reportWindowExpiry, s.windowExpiry_of_due deciding due]
  refine ⟨fun best => ?_, fun behind => ?_⟩
  · rw [s.decideRecord_of_best (ahead.trans best)]
  · rw [s.decideRecord_of_behind (ahead.trans_ne behind), ahead]

/-- Settles O38: what STORED does to the record of its key, before the issue that may follow it. -/
theorem storedHeardByState : Obligations.StoredHeardByState := by
  unfold Obligations.StoredHeardByState
  intro s m together f accepted target enough heard after
  have acts : exec heard s = .next (after (s.storedFor (parseKey m.payload))) := by
    rw [← State.hearStored_of_feed accepted target enough]
    exact exec_storedHeard s m together
  rw [acts]
  refine ⟨fun unknown => ?_, fun i found => ⟨fun recording => ?_, fun undecided => ?_, fun queued => ?_, fun storing => ?_⟩⟩
  · rw [State.storedFor_of_unmatched unknown]
  · rw [State.storedFor_of_recording found recording]
  · rw [State.storedFor_of_undecided found undecided]
  · rw [State.storedFor_of_queued found queued]
    rfl
  · rw [State.storedFor_of_storing found storing]

/-- Settles O39: an expiry that is due is a takeover, and a FAILED link leaves it due. -/
theorem commitTimerExpiryTakesOver : Obligations.CommitTimerExpiryTakesOver := by
  unfold Obligations.CommitTimerExpiryTakesOver
  intro s i held due
  rw [exec_commitTimerExpiry]
  refine ⟨fun failed => ?_, fun unfailed => ?_⟩
  · rw [s.commitExpiry_of_failed i failed]
  · rw [s.commitExpiry_of_due held due unfailed, State.takeOver_eq]
    rfl

/-- Settles O40: the record that waits on the sender, if there is one, and whether it waits on a further station. -/
theorem announcementsOfStationsAhead : Obligations.AnnouncementsOfStationsAhead := by
  unfold Obligations.AnnouncementsOfStationsAhead
  intro s m f accepted target enough
  rw [exec_unstoredHeard, exec_takeoverHeard, State.hearUnstored_of_feed accepted target enough,
    State.hearTakeover_of_feed accepted target enough]
  refine ⟨fun apart => ?_, fun i found held ahead => ?_⟩
  · have unmatched := State.waitsOn_eq_none apart
    rw [State.unstoredFor_of_none unmatched, State.takeoverFor_of_none unmatched]
    exact ⟨rfl, rfl⟩
  · have waits := State.waitsOn_of_ahead found held ahead
    refine ⟨by rw [State.takeoverFor_of_waiting waits], fun last => ?_, fun more => ?_⟩
    · rw [State.unstoredFor_of_last waits last, State.takeOver_eq]
      rfl
    · rw [State.unstoredFor_of_more waits more]

end Sys2Proof.Machine
end

section
/-! PROOFS. Issuing (R139 to R142, R150): how a command to the engine is answered, which request is chosen, what it carries,
and where issuing ends. Each request takes a FREE tag, so as many steps as there are FREE tags end it. -/

namespace Sys2Proof.Machine

variable (s : State)

/-! ### Commands to the engine (R175, R176) -/

/-- An accepted command to the engine, which a feed does not address, acts and is answered. -/
theorem State.command_of_engine (kind : Byte) (act : State → Taken) (m : Heard) (accepted : s.accepts m = true)
    (engine : ∀ f, m.target ≠ .feed f) : s.command kind 0 false true 0xFF#8 act m =
      State.answered m (act s).code (act s).adjusted 0xFF#8 kind (act s).state := by
  cases target : m.target with
  | station v => simp [State.command, State.answered, accepted, target]
  | feed f => exact absurd target (engine f)
  | all => simp [State.command, State.answered, accepted, target]
  | other => simp [State.accepts, target] at accepted

/-! ### RESUME STORE (R150) -/

theorem exec_resumeStore (m : Heard) (accepted : s.accepts m = true) (engine : ∀ f, m.target ≠ .feed f) :
    exec (.resumeStore m) s = .next (State.answered m s.resumeCommand.code s.resumeCommand.adjusted 0xFF#8 0x17#8
      s.resumeCommand.state) :=
  congrArg _ (s.command_of_engine 0x17#8 State.resumeCommand m accepted engine)

theorem State.resumeCommand_of_line (line : s.storeHalt = true) : s.resumeCommand = s.refuse .halted := by
  simp [State.resumeCommand, line]

theorem State.resumeCommand_of_not_ready (line : s.storeHalt = false) (unready : s.link.st ≠ .ready) :
    s.resumeCommand = s.refuse .busy := by
  simp [State.resumeCommand, line, unready]

theorem State.resumeCommand_of_enabled (line : s.storeHalt = false) (ready : s.link.st = .ready)
    (enabled : s.link.latch = true) : s.resumeCommand = s.done := by
  simp [State.resumeCommand, line, ready, enabled]

theorem State.resumeCommand_of_halted (line : s.storeHalt = false) (ready : s.link.st = .ready)
    (halted : s.link.latch = false) :
    s.resumeCommand = (State.issue { s with link := { s.link with latch := true } }).done := by
  simp [State.resumeCommand, line, ready, halted]

/-! ### The FREE tags -/

theorem State.freeTag_some {k : TagIx} (h : s.freeTag = some k) : s.tag k = .free := by
  simpa using List.find?_some h

theorem State.freeTag_eq_none : s.freeTag = none ↔ ∀ k, s.tag k ≠ .free := by
  simp [State.freeTag, allTags]

/-- The tags that are FREE. -/
def State.freeTags (s : State) : Finset TagIx := Finset.univ.filter fun k => s.tag k = .free

theorem State.card_freeTags : s.freeTags.card ≤ 16 := (Finset.card_le_univ _).trans (by simp)

theorem State.issueOne_tag (k : TagIx) (i : RecIx) (ref : PageRef) (j : TagIx) : (s.issueOne k i ref).tag j =
    if j = k then .outstanding { record := i, ref := ref } (some s.status.cfg.swt) else s.tag j :=
  State.tag_setTag _ k j _

/-- A request takes its tag from the FREE ones. -/
theorem State.freeTags_issueOne (k : TagIx) (i : RecIx) (ref : PageRef) :
    (s.issueOne k i ref).freeTags = s.freeTags.erase k := by
  ext j
  simp only [State.freeTags, Finset.mem_filter, Finset.mem_univ, true_and, Finset.mem_erase, State.issueOne_tag]
  by_cases e : j = k <;> simp [e]

/-! ### One request after another (R140) -/

/-- A condition of R140 fails: nothing can be issued. -/
def State.IssuesNothing (s : State) : Prop :=
  s.link.st ≠ .ready ∨ s.link.latch = false ∨ (∀ k, s.tag k ≠ .free) ∨ s.chooseRequest = none

theorem State.issueUpTo_of_nothing (h : s.IssuesNothing) (n : Nat) : s.issueUpTo n = s := by
  cases n with
  | zero => rfl
  | succ n =>
    unfold State.issueUpTo
    rcases h with unready | halted | taken | none
    · simp [unready]
    · simp [halted]
    · simp [s.freeTag_eq_none.2 taken]
    · simp [none]

theorem State.issueUpTo_succ (n : Nat) {k : TagIx} {i : RecIx} {ref : PageRef} (ready : s.link.st = .ready)
    (enabled : s.link.latch = true) (free : s.freeTag = some k) (chosen : s.chooseRequest = some (i, ref)) :
    s.issueUpTo (n + 1) = (s.issueOne k i ref).issueUpTo n := by
  simp [State.issueUpTo, ready, enabled, free, chosen]

theorem State.issues_of_not_nothing (h : ¬ s.IssuesNothing) : ∃ k i ref,
    s.link.st = .ready ∧ s.link.latch = true ∧ s.freeTag = some k ∧ s.chooseRequest = some (i, ref) := by
  simp only [State.IssuesNothing, not_or, ne_eq, not_not, Bool.not_eq_false] at h
  obtain ⟨ready, enabled, free, chosen⟩ := h
  obtain ⟨k, free⟩ := Option.ne_none_iff_exists'.1 fun none => free (s.freeTag_eq_none.1 none)
  obtain ⟨⟨i, ref⟩, chosen⟩ := Option.ne_none_iff_exists'.1 chosen
  exact ⟨k, i, ref, ready, enabled, free, chosen⟩

/-- With a step for every FREE tag, issuing goes on until nothing can be issued. -/
theorem State.issueUpTo_ends (n : Nat) (enough : s.freeTags.card ≤ n) : (s.issueUpTo n).IssuesNothing := by
  induction n generalizing s with
  | zero =>
    have empty : s.freeTags = ∅ := Finset.card_eq_zero.1 (Nat.le_zero.1 enough)
    refine .inr (.inr (.inl fun k free => Finset.notMem_empty k ?_))
    exact empty ▸ Finset.mem_filter.2 ⟨Finset.mem_univ k, free⟩
  | succ n ih =>
    by_cases nothing : s.IssuesNothing
    · rwa [s.issueUpTo_of_nothing nothing]
    · obtain ⟨k, i, ref, ready, enabled, free, chosen⟩ := s.issues_of_not_nothing nothing
      have inside : k ∈ s.freeTags := Finset.mem_filter.2 ⟨Finset.mem_univ k, s.freeTag_some free⟩
      rw [s.issueUpTo_succ n ready enabled free chosen]
      refine ih _ ?_
      rw [State.freeTags_issueOne, Finset.card_erase_of_mem inside]
      omega

/-- What waits decides whether a STORED comes before the issue (R134; log 20). -/
theorem State.storedFollows_iff :
    s.storedFollows = true ↔ ∃ m rest, s.pending = .storedHeard m :: rest ∧ m.together = true := by
  unfold State.storedFollows
  split
  case h_1 m rest waits =>
    refine ⟨fun together => ⟨m, rest, waits, together⟩, ?_⟩
    rintro ⟨m', rest', waits', together⟩
    cases waits.symm.trans waits'
    exact together
  case h_2 other =>
    refine ⟨nofun, ?_⟩
    rintro ⟨m, rest, waits, -⟩
    exact absurd waits (other m rest)

/-! ### The data of a request (R141) -/

/-- The bytes of a page of a part: all of the page, or on the part's last page what is left of the part. -/
theorem Memory.pageData_of_part (m : Memory) (page total pages n : Nat) :
    (m.pageData page (pageLength total pages n)).length = (if n + 1 = pages then total - 131072 * n else 131072) ∧
      ∀ k, k < (m.pageData page (pageLength total pages n)).length →
        (m.pageData page (pageLength total pages n))[k]? = some (m.read (131072 * page + k)) := by
  have length : pageLength total pages n = if n + 1 = pages then total - 131072 * n else 131072 := by
    unfold pageLength
    split
    case isTrue last => rw [← last, Nat.add_sub_cancel, pageBytes]
    case isFalse => rfl
  rw [← length]
  refine ⟨by simp [Memory.pageData], fun k inside => ?_⟩
  simp only [Memory.pageData, List.length_map, List.length_range'] at inside
  simp [Memory.pageData, inside, pageBytes, Nat.mul_comm]

/-! ### The statement -/

/-- Settles O44: the answers of RESUME STORE, where issuing ends, the order of the choice, and what a request carries. -/
theorem resumeStoreByState : Obligations.ResumeStoreByState := by
  unfold Obligations.ResumeStoreByState
  refine ⟨fun s m accepted engine => ?_, fun s => ⟨?_, ?_, fun n => ⟨?_, ?_⟩⟩, fun s => ?_, fun s r n => ?_,
    fun _ _ => rfl⟩
  · rw [exec_resumeStore s m accepted engine]
    refine ⟨fun line => ?_, fun line unready => ?_, fun line ready enabled => ?_, fun line ready halted => ?_⟩
    · rw [s.resumeCommand_of_line line]
      rfl
    · rw [s.resumeCommand_of_not_ready line unready]
      rfl
    · rw [s.resumeCommand_of_enabled line ready enabled]
      rfl
    · rw [s.resumeCommand_of_halted line ready halted]
      rfl
  · intro m rest waits together
    exact s.issue_held (s.storedFollows_iff.2 ⟨m, rest, waits, together⟩)
  · intro apart
    have first : s.storedFollows = false := by
      refine Bool.eq_false_iff.2 fun follows => ?_
      obtain ⟨m, rest, waits, together⟩ := s.storedFollows_iff.1 follows
      exact Bool.false_ne_true ((apart m rest waits).symm.trans together)
    rw [s.issue_eq first]
    exact ⟨rfl, s.issueUpTo_ends 16 s.card_freeTags⟩
  · exact fun nothing => s.issueUpTo_of_nothing nothing n
  · intro k i ref ready enabled free below chosen
    exact s.issueUpTo_succ n ready enabled (s.freeTag_eq k free below) chosen
  · intro pages index due first
    have unwritten : (fun i => (s.record i).unwrittenPage.map fun ref => (i, ref)) = first (some .unwritten) :=
      funext fun i => apply_ite (Option.map fun ref => (i, ref)) _ _ _
    have next : (fun i => (s.record i).nextPage.map fun ref => (i, ref)) = first none :=
      funext fun i => apply_ite (Option.map fun ref => (i, ref)) _ _ _
    have indexDue : (fun i => (s.record i).indexDue) = due := rfl
    unfold State.chooseRequest
    rw [indexDue, unwritten, next]
    cases s.link.queue.find? due with
    | some i => rfl
    | none => cases s.link.queue.findSome? (first (some .unwritten)) <;> rfl
  · exact ⟨beq_eq_decide _ _, beq_eq_decide _ _, rfl, rfl, fun _ => s.mem.pageData_of_part _ _ _ n,
      fun _ => s.mem.pageData_of_part _ _ _ n⟩

end Sys2Proof.Machine
end

section
/-! PROOFS. The storage gateway: what an acknowledgement, the expiry of a store waiting timer, the STORE-HALT line, CLEARED,
the clear timer and RESET STORE leave, case by case (R143 to R153). -/

namespace Sys2Proof.Machine

variable (s : State)

/-! ### Commands as the operations they call -/

theorem exec_acknowledgement (tag status : Byte) : exec (.acknowledgement tag status) s = .next (s.acknowledge tag status) :=
  rfl

theorem exec_storeWaitingTimerExpiry (k : TagIx) : exec (.storeWaitingTimerExpiry k) s = .next (s.storeExpiry k) := rfl

theorem exec_storeHaltAssert : exec .storeHaltAssert s = .next s.haltAssert := rfl

theorem exec_cleared : exec .cleared s = .next s.clearedReceived := rfl

theorem exec_clearTimerExpiry : exec .clearTimerExpiry s = .next s.clearExpiry := rfl

theorem exec_resetStore (m : Heard) (accepted : s.accepts m = true) (engine : ∀ f, m.target ≠ .feed f) :
    exec (.resetStore m) s = .next (State.answered m s.resetStoreCommand.code s.resetStoreCommand.adjusted 0xFF#8 0x18#8
      s.resetStoreCommand.state) :=
  congrArg _ (s.command_of_engine 0x18#8 State.resetStoreCommand m accepted engine)

/-! ### The enable latch (R149) -/

theorem State.haltStore_of_enabled (reason : Byte) (enabled : s.link.latch = true) : s.haltStore reason =
    State.notice .storeHalted reason 0xFF#8 s.ref.count
      { s with link := { s.link with latch := false, haltedLatch := true } } :=
  if_pos enabled

theorem State.haltStore_of_halted (reason : Byte) (halted : s.link.latch = false) : s.haltStore reason = s := by
  simp [State.haltStore, halted]

theorem State.haltAssert_of_running (running : s.running = true) :
    s.haltAssert = State.haltStore 0x01#8 { s with storeHalt := true } :=
  if_pos running

/-! ### A failed record (R147) -/

/-- UNSTORED is queued, and counted in FAULT. -/
def State.tellUnstored (key : Key) (s : State) : State :=
  let told := s.transmit (.unstored key)
  { told with link := { told.link with fault := min 65535 (told.link.fault + 1) } }

theorem State.settleFailed_of_outstanding {i : RecIx} (out : s.hasOutstanding i = true) : s.settleFailed i = s := by
  simp [State.settleFailed, out]

theorem State.settleFailed_of_settled {i : RecIx} (failed : (s.record i).progress.failed = true)
    (noTag : ¬ s.hasOutstanding i = true) : s.settleFailed i =
      State.leaveWriteQueue i (State.freeRecord i (s.tellUnstored (s.record i).key)) :=
  if_pos (by simp [failed, noTag])

theorem State.failRecord_eq (i : RecIx) : s.failRecord i = (s.onRec i Record.fail).settleFailed i := rfl

theorem State.hasOutstanding_onRec (i j : RecIx) (f : Record → Record) :
    (s.onRec i f).hasOutstanding j = s.hasOutstanding j := rfl

/-- A record that fails waits for its requests that are out. -/
theorem State.failRecord_of_outstanding {i : RecIx} (out : s.hasOutstanding i = true) :
    s.failRecord i = s.onRec i Record.fail := by
  rw [State.failRecord_eq, State.settleFailed_of_outstanding]
  rwa [State.hasOutstanding_onRec]

theorem State.failRecord_of_settled {i : RecIx} (noTag : ¬ s.hasOutstanding i = true) : s.failRecord i =
    State.leaveWriteQueue i (State.freeRecord i ((s.onRec i Record.fail).tellUnstored (s.record i).key)) := by
  rw [State.failRecord_eq, State.settleFailed_of_settled, State.record_onRec_same]
  · rfl
  · rw [State.record_onRec_same]
    rfl
  · rwa [State.hasOutstanding_onRec]

/-- With a tag freed, a record's requests that are out are those of the other tags. -/
theorem State.hasOutstanding_setTag_free (k : TagIx) (i : RecIx) : (s.setTag k .free).hasOutstanding i = true ↔
    ∃ k' q timer, k' ≠ k ∧ s.tag k' = .outstanding q timer ∧ q.record = i := by
  rw [State.hasOutstanding_iff]
  refine exists_congr fun k' => exists_congr fun q => exists_congr fun timer => ?_
  rw [State.tag_setTag]
  by_cases e : k' = k <;> simp [e]

/-! ### The status of an acknowledgement (R144 to R147) -/

section status

variable {s : State} {i : RecIx} {ref : PageRef}

theorem State.ackStatus_ok_page (unfailed : (s.record i).progress.failed = false) (page : ref.part ≠ .index) :
    s.ackStatus 0x00#8 i ref = s.onRec i (Record.setMark ref .acknowledged) := by
  simp [State.ackStatus, State.ackOk, unfailed, page]

theorem State.ackStatus_ok_index (unfailed : (s.record i).progress.failed = false) (index : ref.part = .index) :
    s.ackStatus 0x00#8 i ref = State.leaveWriteQueue i (State.freeRecord i
      (let told := s.transmit (.stored (s.record i).key)
       { told with link := { told.link with stored := min 65535 (told.link.stored + 1) } })) := by
  simp [State.ackStatus, State.ackOk, unfailed, index, satInc, satAdd]

theorem State.ackStatus_full (unfailed : (s.record i).progress.failed = false) :
    s.ackStatus 0x01#8 i ref = State.haltStore 0x02#8 (s.onRec i (Record.setMark ref .unwritten)) := by
  simp [State.ackStatus, State.ackFull, unfailed, reasonFull]

theorem State.ackFault_of_unfailed (unfailed : (s.record i).progress.failed = false) :
    s.ackFault i = s.failRecord i := by
  simp [State.ackFault, unfailed]

theorem State.ackFault_of_failed (failed : (s.record i).progress.failed = true) : s.ackFault i = s.settleFailed i :=
  if_pos failed

theorem State.ackStatus_fault {status : Byte} (notOk : status ≠ 0x00#8) (notFull : status ≠ 0x01#8)
    (unfailed : (s.record i).progress.failed = false) : s.ackStatus status i ref = s.failRecord i := by
  rw [State.ackStatus, if_neg notOk, if_neg notFull, State.ackFault_of_unfailed unfailed]

/-- On a record that has failed, the status tells only whether the store halts too. -/
theorem State.ackStatus_of_failed (status : Byte) (failed : (s.record i).progress.failed = true) :
    s.ackStatus status i ref =
      if status = 0x01#8 then (s.settleFailed i).haltStore 0x02#8 else s.settleFailed i := by
  by_cases ok : status = 0x00#8
  · simp [State.ackStatus, State.ackOk, ok, failed]
  · simp only [State.ackStatus, State.ackFull, reasonFull, if_neg ok, if_pos failed, State.ackFault_of_failed failed]

end status

/-! ### The tag of an acknowledgement (R143) -/

theorem State.countStray_eq : s.countStray = { s with link := { s.link with stray := min 65535 (s.link.stray + 1) } } := rfl

section tag

variable {s : State} {tag : Byte} (status : Byte) (running : s.running = true)
include running

theorem State.acknowledge_of_unpaired (unpaired : s.link.st = .clearing ∨ 16 ≤ tag.toNat) :
    s.acknowledge tag status = s.countStray := by
  unfold State.acknowledge
  rw [if_pos running]
  split
  case isTrue inside => exact if_pos (unpaired.resolve_right (Nat.not_le.2 inside))
  case isFalse => rfl

theorem State.acknowledge_of_tag {k : TagIx} (named : k.val = tag.toNat) (unclear : s.link.st ≠ .clearing) :
    s.acknowledge tag status = s.ackTag k status := by
  have inside : tag.toNat < 16 := named ▸ k.isLt
  have same : (⟨tag.toNat, inside⟩ : TagIx) = k := Fin.ext named.symm
  rw [State.acknowledge, if_pos running, dif_pos inside, if_neg unclear, same]

theorem State.acknowledge_of_outstanding {k : TagIx} {q : TagRequest} {timer : Timer} (named : k.val = tag.toNat)
    (unclear : s.link.st ≠ .clearing) (out : s.tag k = .outstanding q timer) :
    s.acknowledge tag status = ((s.setTag k .free).ackStatus status q.record q.ref).issue := by
  simp only [State.acknowledge_of_tag status running named unclear, State.ackTag, out]

theorem State.acknowledge_of_quarantined {k : TagIx} {q : TagRequest} (named : k.val = tag.toNat)
    (unclear : s.link.st ≠ .clearing) (quarantined : s.tag k = .quarantined q) :
    s.acknowledge tag status = (s.setTag k .free).countStray.issue := by
  simp only [State.acknowledge_of_tag status running named unclear, State.ackTag, quarantined]

theorem State.acknowledge_of_free {k : TagIx} (named : k.val = tag.toNat) (unclear : s.link.st ≠ .clearing)
    (free : s.tag k = .free) : s.acknowledge tag status = s.countStray := by
  simp only [State.acknowledge_of_tag status running named unclear, State.ackTag, free]

end tag

/-! ### Store waiting timers (R148) and the clear timer (R152, R153) -/

theorem State.storeExpiry_of_due {k : TagIx} {q : TagRequest} (due : s.tag k = .outstanding q (some 0)) :
    s.storeExpiry k = (s.setTag k (.quarantined q)).ackFault q.record := by
  simp [State.storeExpiry, due, Timer.due]

theorem State.clearedReceived_of_clearing (running : s.running = true) (clearing : s.link.st = .clearing)
    (halted : s.link.latch = false) : s.clearedReceived =
      State.issue { s with link := { s.link with st := .ready, clearTimer := none, latch := !s.storeHalt } } := by
  simp [State.clearedReceived, running, clearing, halted]

theorem State.clearedReceived_of_stray (running : s.running = true) (unexpected : s.link.st ≠ .clearing) :
    s.clearedReceived = s.countStray := by
  simp [State.clearedReceived, running, unexpected]

theorem State.clearExpiry_of_due (clearing : s.link.st = .clearing) (due : s.link.clearTimer = some 0) :
    s.clearExpiry = { s with link := { s.link with st := .failed, clearTimer := none, failedLatch := true } } :=
  if_pos ⟨clearing, (Timer.due_iff _).2 due⟩

/-! ### Records given up (R151) -/

theorem State.giveUp_of_written {i : RecIx} (written : BeingWritten s i) :
    s.giveUp i = State.leaveWriteQueue i (State.freeRecord i (s.transmit (.unstored (s.record i).key))) :=
  if_pos written

theorem State.giveUp_of_unwritten {i : RecIx} (unwritten : ¬ BeingWritten s i) : s.giveUp i = s := if_neg unwritten

theorem State.giveUp_record_same {i : RecIx} (written : BeingWritten s i) : (s.giveUp i).record i = Record.cleared := by
  rw [s.giveUp_of_written written]
  exact (State.freeRecord_record _ i i).trans (if_pos rfl)

theorem State.giveUp_record_other {i j : RecIx} (other : j ≠ i) : (s.giveUp i).record j = s.record j := by
  by_cases written : BeingWritten s i
  · rw [s.giveUp_of_written written]
    exact (State.freeRecord_record _ i j).trans (if_neg other)
  · rw [s.giveUp_of_unwritten written]

theorem State.giveUp_record_unwritten (i : RecIx) {j : RecIx} (unwritten : ¬ BeingWritten s j) :
    (s.giveUp i).record j = s.record j := by
  by_cases e : j = i
  · rw [← e, s.giveUp_of_unwritten unwritten]
  · exact s.giveUp_record_other e

theorem beingWritten_congr {s t : State} {i : RecIx} (same : t.record i = s.record i) :
    BeingWritten t i ↔ BeingWritten s i := by
  unfold BeingWritten
  rw [same]

theorem not_beingWritten_of_cleared {i : RecIx} (cleared : s.record i = Record.cleared) : ¬ BeingWritten s i := by
  simp [BeingWritten, cleared, Record.cleared]

theorem State.giveUp_not_mem {i j : RecIx} (left : j ∉ s.link.queue) : j ∉ (s.giveUp i).link.queue := by
  by_cases written : BeingWritten s i
  · rw [s.giveUp_of_written written]
    exact fun mem => left (List.mem_filter.1 mem).1
  · rwa [s.giveUp_of_unwritten written]

theorem State.giveUp_leaves {i : RecIx} (written : BeingWritten s i) : i ∉ (s.giveUp i).link.queue := by
  rw [s.giveUp_of_written written]
  exact fun mem => by simpa using (List.mem_filter.1 mem).2

theorem State.giveUp_foldl_not_mem (l : List RecIx) {j : RecIx} (left : j ∉ s.link.queue) :
    j ∉ (l.foldl State.giveUp s).link.queue := by
  induction l generalizing s with
  | nil => exact left
  | cons i l ih => exact ih _ (s.giveUp_not_mem left)

theorem State.giveUp_foldl_unwritten (l : List RecIx) {j : RecIx} (unwritten : ¬ BeingWritten s j) :
    (l.foldl State.giveUp s).record j = s.record j := by
  induction l generalizing s with
  | nil => rfl
  | cons i l ih =>
    have same := s.giveUp_record_unwritten i unwritten
    exact (ih _ fun written => unwritten ((beingWritten_congr same).1 written)).trans same

/-- Every record of the list that is being written is freed and leaves the write queue, wherever it stands in the list. -/
theorem State.giveUp_foldl_written {l : List RecIx} {j : RecIx} (mem : j ∈ l) (written : BeingWritten s j) :
    (l.foldl State.giveUp s).record j = Record.cleared ∧ j ∉ (l.foldl State.giveUp s).link.queue := by
  induction l generalizing s with
  | nil => cases mem
  | cons i l ih =>
    by_cases e : j = i
    · subst e
      have cleared := s.giveUp_record_same written
      exact ⟨(State.giveUp_foldl_unwritten _ l (not_beingWritten_of_cleared _ cleared)).trans cleared,
        State.giveUp_foldl_not_mem _ l (s.giveUp_leaves written)⟩
    · exact ih _ ((List.mem_cons.1 mem).resolve_left e) ((beingWritten_congr (s.giveUp_record_other e)).2 written)

/-! ### RESET STORE (R151) -/

/-- Every tag FREE, and then what was being written given up in queue order. -/
def State.givenUp (s : State) : State :=
  s.link.queue.foldl State.giveUp { s with link := { s.link with tags := Vector.replicate 16 .free } }

theorem State.resetStoreCommand_of_clearing (clearing : s.link.st = .clearing) :
    s.resetStoreCommand = s.refuse .busy :=
  if_pos clearing

/-- Giving records up leaves the configuration, so the clear timer is loaded with the swt in force. -/
theorem State.resetStoreCommand_of_open (unclear : s.link.st ≠ .clearing) : s.resetStoreCommand =
    State.done { s.givenUp with
      storeOut := s.givenUp.storeOut ++ [.clear]
      link := { s.givenUp.link with latch := false, st := .clearing, clearTimer := some s.status.cfg.swt } } := by
  have gave (t : State) (i : RecIx) : Keeps t (t.giveUp i) := by
    by_cases written : BeingWritten t i
    · rw [t.giveUp_of_written written]
      exact ⟨rfl, rfl, rfl, rfl, rfl⟩
    · rw [t.giveUp_of_unwritten written]
      exact .refl t
  have status : s.givenUp.status = s.status := (Keeps.foldl gave s.link.queue _).status
  rw [← status]
  exact if_neg unclear

/-! ### The statements -/

/-- Settles O43: a halt finds the latch set or clear, and the line is a halt with its own reason. -/
theorem storeHaltLine : Obligations.StoreHaltLine := by
  unfold Obligations.StoreHaltLine
  refine ⟨fun s running => ⟨fun enabled => ?_, fun halted => ?_, rfl, fun _ _ _ => rfl⟩,
    fun s reason => ⟨s.haltStore_of_enabled reason, s.haltStore_of_halted reason⟩⟩
  · rw [exec_storeHaltAssert, s.haltAssert_of_running running]
    exact congrArg _ (State.haltStore_of_enabled _ 0x01#8 enabled)
  · rw [exec_storeHaltAssert, s.haltAssert_of_running running]
    exact congrArg _ (State.haltStore_of_halted _ 0x01#8 halted)

/-- Settles O41: an unfailed record by the status, a failed record by its other requests, and an acknowledgement unpaired. -/
theorem acknowledgementByItsTag : Obligations.AcknowledgementByItsTag := by
  unfold Obligations.AcknowledgementByItsTag
  refine ⟨?_, ?_, ?_⟩
  · intro s tag status k q timer running unclear named out unfailed freed
    have record : freed.record q.record = s.record q.record := s.setTag_record k .free q.record
    rw [exec_acknowledgement, State.acknowledge_of_outstanding status running named unclear out]
    rw [← record] at unfailed ⊢
    refine ⟨fun ok page => ?_, fun ok index => ?_, fun full => ?_, fun notOk notFull => ?_⟩
    · rw [ok, State.ackStatus_ok_page unfailed page]
    · rw [ok, State.ackStatus_ok_index unfailed index]
    · rw [full, State.ackStatus_full unfailed]
    · rw [State.ackStatus_fault notOk notFull unfailed]
  · intro s tag status k q timer running unclear named out failed freed halted
    have record : freed.record q.record = s.record q.record := s.setTag_record k .free q.record
    have others := s.hasOutstanding_setTag_free k q.record
    rw [exec_acknowledgement, State.acknowledge_of_outstanding status running named unclear out]
    rw [← record] at failed ⊢
    rw [State.ackStatus_of_failed status failed]
    refine ⟨fun more => ?_, fun last => ?_⟩
    · rw [State.settleFailed_of_outstanding _ (others.2 more)]
    · have settled : ¬ freed.hasOutstanding q.record = true := fun out' => by
        obtain ⟨k', q', timer', other, out', mine⟩ := others.1 out'
        exact last k' q' timer' other out' mine
      rw [State.settleFailed_of_settled _ failed settled]
      rfl
  · intro s tag status running stray
    refine ⟨fun unpaired => ?_, fun k named unclear => ⟨fun free => ?_, fun q quarantined => ?_⟩⟩
    · rw [exec_acknowledgement, State.acknowledge_of_unpaired status running unpaired]
      rfl
    · rw [exec_acknowledgement, State.acknowledge_of_free status running named unclear free]
      rfl
    · rw [exec_acknowledgement, State.acknowledge_of_quarantined status running named unclear quarantined]
      rfl

/-- Settles O42: an expiry by whether the record has failed, and a failure by whether a request of the record is out. -/
theorem storeWaitingTimerExpires : Obligations.StoreWaitingTimerExpires := by
  unfold Obligations.StoreWaitingTimerExpires
  refine ⟨?_, ?_⟩
  · intro s k q due
    rw [exec_storeWaitingTimerExpiry, s.storeExpiry_of_due due, ← s.setTag_record k (.quarantined q)]
    refine ⟨fun unfailed => ?_, fun failed => ?_⟩
    · rw [State.ackFault_of_unfailed unfailed]
    · rw [State.ackFault_of_failed failed]
  · intro s i failed
    refine ⟨fun out => s.failRecord_of_outstanding ((s.hasOutstanding_iff i).2 out), fun noTag => ?_⟩
    refine s.failRecord_of_settled fun out => ?_
    obtain ⟨k, q, timer, out, mine⟩ := (s.hasOutstanding_iff i).1 out
    exact noTag k q timer out mine

/-- Settles O45: the command by the link, and the records given up one after another. -/
theorem resetStoreClears : Obligations.ResetStoreClears := by
  unfold Obligations.ResetStoreClears
  refine ⟨fun s m accepted engine => ?_,
    fun s i => ⟨s.giveUp_of_written, fun unwriting unindexing => ?_, fun _ => rfl⟩⟩
  · rw [exec_resetStore s m accepted engine]
    refine ⟨fun clearing => ?_, fun unclear => ⟨?_, fun i mem written => ?_, fun i unwriting unindexing => ?_⟩⟩
    · rw [s.resetStoreCommand_of_clearing clearing]
      rfl
    · rw [s.resetStoreCommand_of_open unclear]
      rfl
    · exact State.giveUp_foldl_written _ mem written
    · exact State.giveUp_foldl_unwritten _ _ (not_or.2 ⟨unwriting, unindexing⟩)
  · exact s.giveUp_of_unwritten (not_or.2 ⟨unwriting, unindexing⟩)

/-- Settles O46: CLEARED by the link state, and the clear timer. -/
theorem clearExchangeEnds : Obligations.ClearExchangeEnds := by
  unfold Obligations.ClearExchangeEnds
  refine fun s => ⟨fun running clearing halted => ?_, fun running unexpected => ?_, fun clearing due => ?_⟩
  · rw [exec_cleared, s.clearedReceived_of_clearing running clearing halted]
  · rw [exec_cleared, s.clearedReceived_of_stray running unexpected, State.countStray_eq]
  · rw [exec_clearTimerExpiry, s.clearExpiry_of_due clearing due]

end Sys2Proof.Machine
end

section
/-! PROOFS. The transmit queue: where an entry is placed, which one a full queue gives up, and what a message that joins
leaves of the queue (R166, R167). -/

namespace Sys2Proof.Machine

/-! ### Placing and dropping entries -/

theorem placeEntry_perm (e : TxEntry) (q : List TxEntry) : (placeEntry e q).Perm (e :: q) := by
  induction q with
  | nil => exact .refl _
  | cons x rest ih =>
    unfold placeEntry
    split
    · exact (ih.cons x).trans (.swap e x rest)
    · exact .refl _

@[simp] theorem length_placeEntry (e : TxEntry) (q : List TxEntry) : (placeEntry e q).length = q.length + 1 :=
  (placeEntry_perm e q).length_eq

@[simp] theorem mem_placeEntry {e x : TxEntry} {q : List TxEntry} : x ∈ placeEntry e q ↔ x = e ∨ x ∈ q := by
  rw [(placeEntry_perm e q).mem_iff, List.mem_cons]

/-- In a queue in class order the place of an entry is behind its own class and the lower ones (R167). -/
theorem placeEntry_eq (e : TxEntry) {q : List TxEntry} (sorted : q.Pairwise fun a b => a.cls ≤ b.cls) :
    placeEntry e q = q.filter (fun x => decide (x.cls ≤ e.cls)) ++ e :: q.filter fun x => decide (e.cls < x.cls) := by
  induction q with
  | nil => rfl
  | cons x rest ih =>
    obtain ⟨first, sorted⟩ := List.pairwise_cons.1 sorted
    unfold placeEntry
    split
    · rename_i le
      simp [ih sorted, le, Nat.not_lt.2 le]
    · rename_i gt
      have above : ∀ y ∈ rest, e.cls < y.cls := fun y mem => (Nat.lt_of_not_le gt).trans_le (first y mem)
      rw [List.filter_cons_of_neg (by simpa using gt), List.filter_cons_of_pos (by simpa using gt),
        List.filter_eq_nil_iff.2 fun y mem => by simpa using above y mem,
        List.filter_eq_self.2 fun y mem => by simpa using above y mem]
      rfl

theorem dropAge_sublist (age : Nat) (q : List TxEntry) : (dropAge age q).Sublist q := List.filter_sublist

/-- An entry that is given up makes room (R167). -/
theorem length_dropAge_lt {x : TxEntry} {q : List TxEntry} (mem : x ∈ q) : (dropAge x.age q).length < q.length :=
  List.length_filter_lt_length_iff_exists.2 ⟨x, mem, by simp⟩

/-! ### The entry that a full queue gives up (R167) -/

/-- An entry of a precedence that is not on the line. -/
def GivesWay (onLine : Option Nat) (q : List TxEntry) (p : Precedence) (x : TxEntry) : Prop :=
  x ∈ q ∧ x.msg.precedence = p ∧ onLine ≠ some x.age

variable {p : Precedence} {onLine : Option Nat} {q : List TxEntry} {x : TxEntry}

theorem newestOf_eq_none : newestOf p onLine q = none ↔ ∀ x, ¬ GivesWay onLine q p x := by
  simp [newestOf, GivesWay, ne_comm]

theorem newestOf_mem (found : newestOf p onLine q = some x) : GivesWay onLine q p x := by
  have mem := List.mem_of_find?_eq_some found
  have holds := List.find?_some found
  simp only [Bool.and_eq_true, beq_iff_eq, bne_iff_ne] at holds
  exact ⟨List.mem_reverse.1 mem, holds.1, holds.2.symm⟩

/-- Where the messages of a precedence stand in order of age, the one found is the newest of them. -/
theorem newestOf_newest (aged : q.Pairwise fun a b => a.msg.precedence = b.msg.precedence → a.age < b.age)
    (found : newestOf p onLine q = some x) {y : TxEntry} (other : GivesWay onLine q p y) : y.age ≤ x.age := by
  obtain ⟨mem, mine, free⟩ := other
  obtain ⟨-, of, -⟩ := newestOf_mem found
  obtain ⟨-, newer, older, split, none⟩ := List.find?_eq_some_iff_append.1 found
  rw [List.reverse_eq_iff, List.reverse_append, List.reverse_cons, List.append_assoc] at split
  subst split
  have notNewer : y ∉ newer := fun newerMem => by
    simpa [mine, free.symm] using none y newerMem
  rcases (by simpa [notNewer] using mem : y ∈ older ∨ y = x) with olderMem | rfl
  · refine Nat.le_of_lt ((List.pairwise_append.1 aged).2.2 y (by simpa using olderMem) x (by simp) ?_)
    rw [mine, of]
  · exact le_rfl

theorem displaced_eq_none : displaced onLine q = none ↔
    ∀ x, ¬ GivesWay onLine q .notice x ∧ ¬ GivesWay onLine q .answer x := by
  rw [displaced, Option.or_eq_none_iff, newestOf_eq_none, newestOf_eq_none, forall_and]

/-- The newest notice is displaced, or where there is none the newest answer (R167). -/
theorem displaced_cases (found : displaced onLine q = some x) : newestOf .notice onLine q = some x ∨
    (newestOf .notice onLine q = none ∧ newestOf .answer onLine q = some x) := by
  simpa only [displaced, Option.or_eq_some_iff] using found

theorem displaced_mem (found : displaced onLine q = some x) : x ∈ q := by
  obtain found | ⟨-, found⟩ := displaced_cases found
  · exact (newestOf_mem found).1
  · exact (newestOf_mem found).1

/-! ### A message that joins (R167) -/

/-- The entry of a message that joins. -/
def CueLine.entry (l : CueLine) (swap : Bool) (m : Message) : TxEntry := { msg := m, cls := m.cls swap, age := l.nextAge }

variable (l : CueLine) (swap : Bool) {m : Message}

theorem CueLine.join_of_room (room : l.queue.length < 16) : l.join swap m =
    { l with queue := placeEntry (l.entry swap m) l.queue, nextAge := l.nextAge + 1 } := if_pos room

theorem CueLine.join_of_untwinned (full : 16 ≤ l.queue.length) (untwinned : m.precedence ≠ .twin) :
    l.join swap m = { l with droppedLatch := true } :=
  (if_neg (Nat.not_lt.2 full)).trans (if_neg untwinned)

theorem CueLine.join_of_displacing (full : 16 ≤ l.queue.length) (twin : m.precedence = .twin)
    (found : displaced l.onLine l.queue = some x) : l.join swap m =
      { l with
        queue := placeEntry (l.entry swap m) (dropAge x.age l.queue), nextAge := l.nextAge + 1, droppedLatch := true } := by
  refine (if_neg (Nat.not_lt.2 full)).trans ((if_pos twin).trans ?_)
  rw [found]
  rfl

theorem CueLine.join_of_blocked (full : 16 ≤ l.queue.length) (twin : m.precedence = .twin)
    (none : displaced l.onLine l.queue = none) : l.join swap m = { l with droppedLatch := true } := by
  refine (if_neg (Nat.not_lt.2 full)).trans ((if_pos twin).trans ?_)
  rw [none]

/-- A message joins a queue below its 16 entries, or it is dropped, or it takes the place of an entry of a full queue. -/
theorem CueLine.join_cases (m : Message) :
    (l.queue.length < 16 ∧
      l.join swap m = { l with queue := placeEntry (l.entry swap m) l.queue, nextAge := l.nextAge + 1 }) ∨
    l.join swap m = { l with droppedLatch := true } ∨
    ∃ x ∈ l.queue, l.join swap m =
      { l with
        queue := placeEntry (l.entry swap m) (dropAge x.age l.queue), nextAge := l.nextAge + 1, droppedLatch := true } := by
  by_cases room : l.queue.length < 16
  · exact .inl ⟨room, l.join_of_room swap room⟩
  · have full := Nat.not_lt.1 room
    by_cases twin : m.precedence = .twin
    · cases found : displaced l.onLine l.queue with
      | none => exact .inr (.inl (l.join_of_blocked swap full twin found))
      | some x => exact .inr (.inr ⟨x, displaced_mem found, l.join_of_displacing swap full twin found⟩)
    · exact .inr (.inl (l.join_of_untwinned swap full twin))

/-! ### Notices (R178) and classes (R166) -/

theorem State.notice_of_enabled (s : State) {cause : Cause} (reason channel : Byte) (count : HouseCount)
    (enabled : s.status.cfg.mask.getLsbD (cause.code - 1) = true) :
    s.notice cause reason channel count = s.transmit (.notice cause reason channel count) := if_pos enabled

theorem State.notice_of_disabled (s : State) {cause : Cause} (reason channel : Byte) (count : HouseCount)
    (disabled : s.status.cfg.mask.getLsbD (cause.code - 1) = false) : s.notice cause reason channel count = s :=
  if_neg (by simp [disabled])

/-- The class of a message (the table of R166). -/
theorem Message.cls_eq (m : Message) :
    (m.precedence = .twin → m.cls false = 0 ∧ m.cls true = 0) ∧
    (m.precedence = .answer → m.cls false = 1 ∧ m.cls true = 2) ∧
    (m.precedence = .notice → m.cls false = 2 ∧ m.cls true = 1) := by
  unfold Message.cls
  refine ⟨fun h => ?_, fun h => ?_, fun h => ?_⟩ <;> rw [h] <;> decide

/-! ### The statement -/

/-- Settles O48: how a message joins, by the room in the queue and the message's precedence. -/
theorem messageJoinsTheQueue : Obligations.MessageJoinsTheQueue := by
  unfold Obligations.MessageJoinsTheQueue
  refine ⟨fun l swap m => ⟨l.join_of_room swap, l.join_of_untwinned swap, fun full twin => ⟨fun x found => ?_, ?_⟩,
      fun q sorted => placeEntry_eq _ sorted, fun q aged => ⟨displaced_eq_none, fun x found => ?_⟩⟩,
    fun s => ⟨fun _ => rfl, fun _ _ _ _ => ⟨s.notice_of_enabled _ _ _, s.notice_of_disabled _ _ _⟩,
      fun _ _ _ => rfl, fun _ _ => rfl, fun _ _ _ _ _ => rfl⟩,
    rfl, Message.cls_eq, fun _ _ _ _ _ => ⟨rfl, rfl, rfl, rfl⟩,
    fun _ => ⟨fun _ _ _ _ => rfl, fun _ => rfl, fun _ => rfl, fun _ => rfl, fun _ _ _ _ => rfl⟩⟩
  · exact l.join_of_displacing swap full twin found
  · exact l.join_of_blocked swap full twin
  · obtain found | ⟨noNotice, found⟩ := displaced_cases found
    · exact .inl ⟨newestOf_mem found, fun y => newestOf_newest aged found⟩
    · exact .inr ⟨newestOf_eq_none.1 noNotice, newestOf_mem found, fun y => newestOf_newest aged found⟩

end Sys2Proof.Machine
end

section
/-! PROOFS. The order of the transmit queue (R166): a message that joins and one that leaves keep it, and so does what each
operation makes of the engine. -/

namespace Sys2Proof.Machine

/-! ### The queue of one interface -/

/-- The transmit queue holds at most 16 messages, in class order and, within a class, in age order (R166). -/
structure CueLine.InOrder (l : CueLine) : Prop where
  length : l.queue.length ≤ 16
  sorted : l.queue.Pairwise fun a b => a.cls < b.cls ∨ (a.cls = b.cls ∧ a.age < b.age)
  aged : ∀ e ∈ l.queue, e.age < l.nextAge

theorem transmitQueueOrdered_iff (s : State) : TransmitQueueOrdered s ↔ s.cue.InOrder :=
  ⟨fun ⟨length, sorted, aged⟩ => ⟨length, sorted, aged⟩, fun h => ⟨h.length, h.sorted, h.aged⟩⟩

/-- An entry newer than all others takes a place that keeps the order (R167). -/
theorem placeEntry_sorted {e : TxEntry} {q : List TxEntry}
    (sorted : q.Pairwise fun a b => a.cls < b.cls ∨ (a.cls = b.cls ∧ a.age < b.age)) (newest : ∀ x ∈ q, x.age < e.age) :
    (placeEntry e q).Pairwise fun a b => a.cls < b.cls ∨ (a.cls = b.cls ∧ a.age < b.age) := by
  induction q with
  | nil => exact List.pairwise_singleton _ _
  | cons x rest ih =>
    obtain ⟨first, sorted'⟩ := List.pairwise_cons.1 sorted
    unfold placeEntry
    split
    · rename_i le
      refine List.pairwise_cons.2 ⟨fun y mem => ?_, ih sorted' fun y mem => newest y (.tail x mem)⟩
      obtain rfl | mem := mem_placeEntry.1 mem
      · exact (Nat.lt_or_eq_of_le le).imp_right fun same => ⟨same, newest x (.head rest)⟩
      · exact first y mem
    · rename_i gt
      refine List.pairwise_cons.2 ⟨fun y mem => .inl ?_, sorted⟩
      obtain rfl | mem := List.mem_cons.1 mem
      · exact Nat.lt_of_not_le gt
      · exact (Nat.lt_of_not_le gt).trans_le ((first y mem).elim Nat.le_of_lt fun same => same.1.le)

/-- An entry of the next age placed in a part of the queue that leaves it room. -/
theorem CueLine.InOrder.place {l : CueLine} (h : l.InOrder) (swap : Bool) (m : Message) {q : List TxEntry}
    (part : q.Sublist l.queue) (room : q.length < 16) {l' : CueLine}
    (queue : l'.queue = placeEntry (l.entry swap m) q) (nextAge : l'.nextAge = l.nextAge + 1) : l'.InOrder where
  length := by rw [queue, length_placeEntry]; exact room
  sorted := by
    rw [queue]
    exact placeEntry_sorted (h.sorted.sublist part) fun x mem => h.aged x (part.subset mem)
  aged x mem := by
    rw [nextAge]
    rw [queue, mem_placeEntry] at mem
    obtain rfl | mem := mem
    · exact Nat.lt_succ_self _
    · exact (h.aged x (part.subset mem)).trans (Nat.lt_succ_self _)

/-- Entries that leave keep the order of those that stay. -/
theorem CueLine.InOrder.shrink {l l' : CueLine} (h : l.InOrder) (part : l'.queue.Sublist l.queue)
    (nextAge : l'.nextAge = l.nextAge) : l'.InOrder where
  length := part.length_le.trans h.length
  sorted := h.sorted.sublist part
  aged x mem := nextAge ▸ h.aged x (part.subset mem)

theorem CueLine.InOrder.join {l : CueLine} (h : l.InOrder) (swap : Bool) (m : Message) : (l.join swap m).InOrder := by
  obtain ⟨room, joined⟩ | dropped | ⟨x, mem, displacing⟩ := l.join_cases swap m
  · rw [joined]
    exact h.place swap m (List.Sublist.refl _) room rfl rfl
  · rw [dropped]
    exact h.shrink (List.Sublist.refl _) rfl
  · rw [displacing]
    exact h.place swap m (dropAge_sublist _ _) ((length_dropAge_lt mem).trans_le h.length) rfl rfl

/-! ### What an operation keeps -/

/-- A transmit queue in order before an operation is in order after it. -/
def TxOrderKept (s t : State) : Prop := s.cue.InOrder → t.cue.InOrder

theorem TxOrderKept.refl (s : State) : TxOrderKept s s := id

theorem TxOrderKept.trans {s t u : State} (h : TxOrderKept s t) (k : TxOrderKept t u) : TxOrderKept s u := k ∘ h

theorem TxOrderKept.after {s t u : State} (k : TxOrderKept t u) (h : TxOrderKept s t) : TxOrderKept s u := h.trans k

theorem TxOrderKept.of_shrink {s t : State} (part : t.cue.queue.Sublist s.cue.queue)
    (nextAge : t.cue.nextAge = s.cue.nextAge) : TxOrderKept s t := fun h => h.shrink part nextAge

/-- What leaves the queue and the next age as they are. -/
theorem TxOrderKept.of_queue {s t : State} (queue : t.cue.queue = s.cue.queue) (nextAge : t.cue.nextAge = s.cue.nextAge) :
    TxOrderKept s t := .of_shrink (queue ▸ List.Sublist.refl _) nextAge

theorem TxOrderKept.of_cue {s t : State} (same : t.cue = s.cue) : TxOrderKept s t :=
  .of_queue (congrArg CueLine.queue same) (congrArg CueLine.nextAge same)

/-- What leaves the interface as it is may stand before an operation. -/
theorem TxOrderKept.of_same {s t u : State} (k : TxOrderKept t u) (same : t.cue = s.cue) : TxOrderKept s u :=
  (TxOrderKept.of_cue same).trans k

theorem TxOrderKept.ite {s t u : State} {p : Prop} [Decidable p] (h : TxOrderKept s t) (k : TxOrderKept s u) :
    TxOrderKept s (if p then t else u) := by
  split
  · exact h
  · exact k

theorem TxOrderKept.foldl {α : Type} {f : State → α → State} (h : ∀ s a, TxOrderKept s (f s a)) (l : List α) (s : State) :
    TxOrderKept s (l.foldl f s) := by
  induction l generalizing s with
  | nil => exact .refl s
  | cons a l ih => exact (h s a).trans (ih _)

variable (s : State)

theorem State.transmit_txOrder (m : Message) : TxOrderKept s (s.transmit m) := fun h => h.join _ m

theorem State.notice_txOrder (k : Cause) (r c : Byte) (n : HouseCount) : TxOrderKept s (s.notice k r c n) :=
  .ite (s.transmit_txOrder _) (.refl s)

theorem State.engineNotice_txOrder (k : Cause) (r : Byte) : TxOrderKept s (s.engineNotice k r) := s.notice_txOrder _ _ _ _

theorem State.channelNotice_txOrder (k : Cause) (r : Byte) (c : Port) : TxOrderKept s (s.channelNotice k r c) :=
  s.notice_txOrder _ _ _ _

theorem State.onRec_txOrder (i : RecIx) (f : Record → Record) : TxOrderKept s (s.onRec i f) := .of_cue rfl

theorem State.onSync_txOrder (c : Port) (f : Synchroniser → Synchroniser) : TxOrderKept s (s.onSync c f) := .of_cue rfl

theorem State.onTake_txOrder (c : Port) (f : TakeController → TakeController) : TxOrderKept s (s.onTake c f) := .of_cue rfl

theorem State.retally_txOrder (c : Port) : TxOrderKept s (s.retally c) := .ite (.refl s) (.of_cue rfl)

/-! ### Staging pool -/

theorem State.evict_txOrder (i : RecIx) : TxOrderKept s (s.evict i) := (State.channelNotice_txOrder _ _ _ _).of_same rfl

theorem State.lowMarkTest_txOrder (fuel : Nat) : TxOrderKept s (s.lowMarkTest fuel) := by
  induction fuel generalizing s with
  | zero => exact .refl s
  | succ n ih =>
    unfold State.lowMarkTest
    split
    · split
      · exact (s.evict_txOrder _).trans (ih _)
      · exact .refl s
    · exact .refl s

theorem State.takePage_txOrder (i : RecIx) (l : PageList) (t : State) (h : s.takePage i l = some t) : TxOrderKept s t := by
  unfold State.takePage at h
  split at h
  · cases h
  · cases h
    exact (State.lowMarkTest_txOrder _ _).of_same rfl

theorem State.takePages_txOrder (i : RecIx) (l : PageList) (n : Nat) : TxOrderKept s (s.takePages i l n).1 := by
  induction n generalizing s with
  | zero => exact .refl s
  | succ n ih =>
    unfold State.takePages
    split
    · exact .refl s
    · rename_i t h
      exact (s.takePage_txOrder i l t h).trans (ih t)

theorem State.requestPages_txOrder (i : RecIx) (l : PageList) (n : Nat) : TxOrderKept s (s.requestPages i l n).1 := by
  have taken := s.takePages_txOrder i l n
  unfold State.requestPages
  dsimp only
  split
  · exact .refl s
  · split
    · rename_i t e; rw [e] at taken; exact taken
    · rename_i t e; rw [e] at taken; exact taken.trans (.of_cue rfl)

theorem State.txOrder_of_requestPages {i : RecIx} {l : PageList} {n : Nat} {t : State} {found : Bool}
    (h : s.requestPages i l n = (t, found)) : TxOrderKept s t := by
  have kept := s.requestPages_txOrder i l n
  rwa [h] at kept

/-! ### Store link -/

/-- Requests are issued on the store link alone. -/
theorem State.issueUpTo_cue (fuel : Nat) : (s.issueUpTo fuel).cue = s.cue := by
  induction fuel generalizing s with
  | zero => rfl
  | succ n ih =>
    unfold State.issueUpTo
    split
    · split
      · exact ih _
      · rfl
    · rfl

theorem State.issue_txOrder : TxOrderKept s s.issue := .ite (.refl s) (.of_cue (s.issueUpTo_cue 16))

theorem State.joinWriteQueue_txOrder (i : RecIx) : TxOrderKept s (s.joinWriteQueue i) := (State.issue_txOrder _).of_same rfl

theorem State.settleFailed_txOrder (i : RecIx) : TxOrderKept s (s.settleFailed i) :=
  .ite ((s.transmit_txOrder _).trans (.of_cue rfl)) (.refl s)

theorem State.haltStore_txOrder (r : Byte) : TxOrderKept s (s.haltStore r) :=
  .ite ((State.engineNotice_txOrder _ _ _).of_same rfl) (.refl s)

theorem State.ackOk_txOrder (i : RecIx) (ref : PageRef) : TxOrderKept s (s.ackOk i ref) :=
  .ite (s.settleFailed_txOrder i) (.ite ((s.transmit_txOrder _).trans (.of_cue rfl)) (.of_cue rfl))

theorem State.ackFull_txOrder (i : RecIx) (ref : PageRef) : TxOrderKept s (s.ackFull i ref) :=
  (State.haltStore_txOrder _ _).after (.ite (s.settleFailed_txOrder i) (.of_cue rfl))

theorem State.ackFault_txOrder (i : RecIx) : TxOrderKept s (s.ackFault i) :=
  .ite (s.settleFailed_txOrder i) ((State.settleFailed_txOrder _ i).of_same rfl)

theorem State.ackTag_txOrder (k : TagIx) (status : Byte) : TxOrderKept s (s.ackTag k status) := by
  unfold State.ackTag
  split
  · rename_i r _ _
    have judged : TxOrderKept (s.setTag k .free) ((s.setTag k .free).ackStatus status r.record r.ref) :=
      .ite (State.ackOk_txOrder _ _ _) (.ite (State.ackFull_txOrder _ _ _) (State.ackFault_txOrder _ _))
    exact (State.issue_txOrder _).after (judged.of_same rfl)
  · exact (State.issue_txOrder _).of_same rfl
  · exact .of_cue rfl

theorem State.acknowledge_txOrder (tag status : Byte) : TxOrderKept s (s.acknowledge tag status) := by
  unfold State.acknowledge
  split
  · split
    · exact .ite (.of_cue rfl) (s.ackTag_txOrder _ _)
    · exact .of_cue rfl
  · exact .refl s

theorem State.storeExpiry_txOrder (k : TagIx) : TxOrderKept s (s.storeExpiry k) := by
  unfold State.storeExpiry
  split
  · exact .ite ((State.ackFault_txOrder _ _).of_same rfl) (.refl s)
  · exact .refl s
  · exact .refl s

theorem State.clearExpiry_txOrder : TxOrderKept s s.clearExpiry := .ite (.of_cue rfl) (.refl s)

theorem State.haltAssert_txOrder : TxOrderKept s s.haltAssert :=
  .ite ((State.haltStore_txOrder _ _).of_same rfl) (.of_cue rfl)

theorem State.clearedReceived_txOrder : TxOrderKept s s.clearedReceived :=
  .ite (.ite ((State.issue_txOrder _).of_same rfl) (.of_cue rfl)) (.refl s)

/-! ### Segments -/

theorem State.countOpen_cue (c : Port) (f : Counts → Counts) : (s.countOpen c f).cue = s.cue := by
  unfold State.countOpen
  split <;> rfl

theorem State.closeComplete_txOrder (i : RecIx) : TxOrderKept s (s.closeComplete i) := by
  have reported (m : Message) : TxOrderKept s (State.transmit m (s.onRec i fun r => { r with drainTimer := none })) :=
    (State.transmit_txOrder _ m).of_same rfl
  exact .ite ((reported _).trans (.of_cue rfl)) <|
    .ite ((reported _).trans (.of_cue rfl)) ((State.joinWriteQueue_txOrder _ i).after (reported _))

theorem State.closeRecord_txOrder (torn : Bool) (i : RecIx) : TxOrderKept s (s.closeRecord torn i) :=
  .ite ((State.closeComplete_txOrder _ i).of_same rfl) (.of_cue rfl)

theorem State.closeOpen_txOrder (torn : Bool) (c : Port) : TxOrderKept s (s.closeOpen torn c) := by
  unfold State.closeOpen
  split
  · exact s.closeRecord_txOrder torn _
  · exact .refl s

theorem State.overrun_txOrder (r : Byte) (c : Port) : TxOrderKept s (s.overrun r c) :=
  (State.channelNotice_txOrder _ _ _ _).of_same rfl

theorem State.openSegment_txOrder (c : Port) (key : Key) : TxOrderKept s (s.openSegment c key) := by
  unfold State.openSegment
  dsimp only
  split
  · exact s.overrun_txOrder _ c
  · split
    · exact .of_cue rfl
    · split
      · exact (s.evict_txOrder _).trans (.of_cue rfl)
      · exact s.overrun_txOrder _ c

/-! ### Browse Unit -/

theorem State.startCoder_cue : s.startCoder.cue = s.cue := by
  unfold State.startCoder
  split <;> rfl

/-- Selection queues jobs and no message. -/
theorem State.offer_cue (c : Port) (i : RecIx) (f : Option (Nat × Nat)) : (s.offer c i f).cue = s.cue := by
  unfold State.offer
  dsimp only
  split
  · split
    · unfold State.selectPresent
      dsimp only
      split
      · exact State.startCoder_cue _
      · rfl
    · rfl
  · rfl

theorem State.settleKeep_txOrder (j : Job) (coded : List Byte) : TxOrderKept s (s.settleKeep j coded) := by
  rw [State.settleKeep.eq_1]
  split
  · rename_i t e
    exact (s.txOrder_of_requestPages e).trans (.of_cue rfl)
  · rename_i t e
    exact (s.txOrder_of_requestPages e).trans (.of_cue rfl)

theorem State.nextJob_cue : s.nextJob.cue = s.cue := State.startCoder_cue _

theorem State.complete_txOrder (coded : List Byte) : TxOrderKept s (s.complete coded) := by
  unfold State.complete
  split
  · rename_i j _ _ _
    have settled : TxOrderKept s (s.settleJob j coded) := .ite (.of_cue rfl) (s.settleKeep_txOrder j coded)
    have counted := settled.trans
      (State.onRec_txOrder _ j.record fun r => { r with pendingJobs := r.pendingJobs - 1 })
    exact .ite (.of_cue s.nextJob_cue)
      ((counted.trans (.of_cue (State.nextJob_cue _))).trans (.ite (State.closeComplete_txOrder _ _) (.refl _)))
  · exact .refl s

theorem State.takeDrain_txOrder (i : RecIx) : TxOrderKept s (s.takeDrain i) :=
  .ite ((State.closeComplete_txOrder _ i).of_same rfl) (.refl s)

/-! ### Copy arbitration -/

theorem State.windowExpiry_txOrder (i : RecIx) : TxOrderKept s (s.windowExpiry i) :=
  .ite (.ite ((State.joinWriteQueue_txOrder _ i).of_same rfl) (.of_cue rfl)) (.refl s)

theorem State.takeOver_txOrder (i : RecIx) : TxOrderKept s (s.takeOver i) := by
  have announced := (s.onRec_txOrder i fun r => { r with commitTimer := none, ahead := [] }).trans
    (State.transmit_txOrder _ (.takeover (s.record i).key))
  unfold State.takeOver
  dsimp only
  rw [State.record_onRec_same]
  exact ((announced.trans (State.onRec_txOrder _ i _)).trans (State.joinWriteQueue_txOrder _ i)).trans (.of_cue rfl)

theorem State.commitExpiry_txOrder (i : RecIx) : TxOrderKept s (s.commitExpiry i) := .ite (s.takeOver_txOrder i) (.refl s)

/-- A report heard queues nothing. -/
theorem State.hearReport_txOrder (m : Heard) : TxOrderKept s (s.hearReport m) := by
  unfold State.hearReport State.peerReport
  dsimp only
  split
  · split
    · exact .of_cue rfl
    · exact .ite (.refl s) (.ite (.of_cue rfl) (.of_cue rfl))
  · exact .refl s

theorem State.storedFor_cue (key : Key) : (s.storedFor key).cue = s.cue := by
  unfold State.storedFor
  split
  · rfl
  · split <;> rfl

theorem State.takeStored_txOrder (m : HeardStored) : TxOrderKept s (s.takeStored m) := by
  have heard : TxOrderKept s (s.hearStored m.heard) := by
    unfold State.hearStored
    split
    · exact .of_cue (s.storedFor_cue _)
    · exact .refl s
  exact .ite (heard.trans (State.issue_txOrder _)) heard

theorem State.hearUnstored_txOrder (m : Heard) : TxOrderKept s (s.hearUnstored m) := by
  unfold State.hearUnstored State.unstoredFor
  split
  · split
    · exact .refl s
    · exact .ite ((State.takeOver_txOrder _ _).of_same rfl) (.of_cue rfl)
  · exact .refl s

theorem State.hearTakeover_txOrder (m : Heard) : TxOrderKept s (s.hearTakeover m) := by
  unfold State.hearTakeover State.takeoverFor
  split
  · split
    · exact .refl s
    · exact .of_cue rfl
  · exact .refl s

/-! ### Placement -/

theorem State.syncLoss_txOrder (c : Port) : TxOrderKept s (s.syncLoss c) := .of_cue (s.countOpen_cue c _)

theorem State.pack_txOrder (i : RecIx) (f : FrameRecord) : TxOrderKept s (s.pack i f).1 := by
  rw [State.pack.eq_1]
  split
  · rename_i t e
    exact (s.txOrder_of_requestPages e).trans (.of_cue rfl)
  · rename_i t e
    exact s.txOrder_of_requestPages e

theorem State.enterPlacement_cue (c : Port) (i : RecIx) (k : PlacementKind) (key : Bool) (f : Option (Nat × Nat)) :
    (s.enterPlacement c i k key f).cue = s.cue := State.offer_cue _ c i f

theorem State.appendPlacement_txOrder (c : Port) (i : RecIx) (x : Placement) : TxOrderKept s (s.appendPlacement c i x) := by
  cases x with
  | present f =>
    have packed (t : State) (stored : Bool) (e : s.pack i f = (t, stored)) : TxOrderKept s t := by
      have kept := s.pack_txOrder i f
      rwa [e] at kept
    rw [State.appendPlacement.eq_1]
    split
    · rename_i t e
      exact (packed t _ e).trans (.of_cue (t.enterPlacement_cue _ _ _ _ _))
    · rename_i t e
      exact (packed t _ e).trans (.of_cue (t.enterPlacement_cue _ _ _ _ _))
  | repeated => exact .of_cue (s.enterPlacement_cue _ _ _ _ _)
  | fill => exact .of_cue (s.enterPlacement_cue _ _ _ _ _)

theorem State.releasePlacement_txOrder (c : Port) : TxOrderKept s (s.releasePlacement c) := by
  unfold State.releasePlacement
  dsimp only
  split
  · exact .of_cue rfl
  · exact ((s.onSync_txOrder c _).trans (State.appendPlacement_txOrder _ _ _ _)).trans (State.onRec_txOrder _ _ _)

/-! ### Takes -/

/-- The end of a take: the take controller, its tally and the notice. -/
theorem State.endOfTake_txOrder (f : TakeController → TakeController) (reason : EndReason) (c : Port) :
    TxOrderKept s (((s.onTake c f).retally c).takeEnd reason c) :=
  (State.channelNotice_txOrder _ _ _ _).after ((State.retally_txOrder _ c).of_same rfl)

theorem State.holdOverExpire_txOrder (c : Port) : TxOrderKept s (s.holdOverExpire c) :=
  (s.closeOpen_txOrder true c).trans (State.endOfTake_txOrder _ _ .loss c)

theorem State.boundaryClose_txOrder (c : Port) : TxOrderKept s (s.boundaryClose c) :=
  (s.closeOpen_txOrder false c).trans (.ite (State.endOfTake_txOrder _ _ .stop c) (.refl _))

theorem State.announceClip_txOrder (c : Port) : TxOrderKept s (s.announceClip c) :=
  ((s.channelNotice_txOrder _ _ c).trans (State.channelNotice_txOrder _ _ _ c)).trans (.of_cue rfl)

theorem State.takeStart_txOrder (c : Port) (q : Cue) : TxOrderKept s (s.takeStart c q) :=
  (State.announceClip_txOrder _ c).after ((State.retally_txOrder _ c).of_same rfl)

theorem State.settleCue_txOrder (c : Port) : TxOrderKept s (s.settleCue c) := by
  have replaced (q : Cue) : TxOrderKept s (s.replaceCue c q) :=
    .ite ((State.channelNotice_txOrder _ _ _ c).of_same rfl) ((State.announceClip_txOrder _ c).of_same rfl)
  unfold State.settleCue
  dsimp only
  split
  · split
    · exact replaced _
    · exact .ite (.refl s) (s.endOfTake_txOrder _ .normal c)
  · exact .refl s

theorem State.openSpan_txOrder (c : Port) : TxOrderKept s (s.openSpan c) := by
  unfold State.openSpan
  dsimp only
  split
  · exact .ite (.of_cue rfl) ((State.openSegment_txOrder _ c _).of_same rfl)
  · exact (State.openSegment_txOrder _ c _).of_same rfl

theorem State.boundary_txOrder (c : Port) : TxOrderKept s (s.boundary c) := by
  have spanned (t : State) (h : TxOrderKept s t) :
      TxOrderKept s (if (t.chan c).take.st = .recording then t.openSpan c else t) :=
    h.trans (.ite (t.openSpan_txOrder c) (.refl t))
  have closed := s.boundaryClose_txOrder c
  unfold State.boundary
  dsimp only
  apply spanned
  split
  · exact closed.trans (State.takeStart_txOrder _ c _)
  · exact closed.trans (State.settleCue_txOrder _ c)
  · exact closed

theorem State.takeTick_txOrder (preset : Bool) (c : Port) : TxOrderKept s (s.takeTick preset c) := by
  have placed (t : State) : TxOrderKept t (t.boundaryAndPlacement preset c) :=
    (State.releasePlacement_txOrder _ c).after (.ite (t.boundary_txOrder c) (.refl t))
  have counted := s.onTake_txOrder c fun t => { t with holdOver := t.holdOver + 1 }
  exact .ite (.refl s) <| .ite
    (.ite ((counted.trans (State.holdOverExpire_txOrder _ c)).trans (placed _)) (counted.trans (placed _))) (placed s)

/-! ### Feed conditions and lane bytes -/

theorem State.declareLost_txOrder (c : Port) (reason : LossReason) : TxOrderKept s (s.declareLost c reason) := by
  have lost : TxOrderKept s ((s.onPort c fun p => { p with feed := .lost reason }).retally c) :=
    (State.retally_txOrder _ c).of_same rfl
  exact .ite ((State.syncLoss_txOrder _ c).after
    ((State.channelNotice_txOrder _ _ _ c).after (lost.trans (.of_cue rfl)))) (.of_cue rfl)

theorem State.feedBack_txOrder (c : Port) : TxOrderKept s (s.feedBack c) := by
  have live : TxOrderKept s ((s.onPort c fun p => { p with feed := .live, firstSinceArm := false }).retally c) :=
    (State.retally_txOrder _ c).of_same rfl
  exact (live.trans (.ite (.refl _) (State.channelNotice_txOrder _ _ _ c))).trans (.of_cue rfl)

theorem State.samplePresence_txOrder (level : Bool) (c : Port) : TxOrderKept s (s.samplePresence level c) := by
  have fall (t : State) : TxOrderKept t (t.presenceFall c) := .ite ((State.declareLost_txOrder _ c _).of_same rfl) (.refl t)
  exact .ite (.of_cue rfl) (.ite (.of_cue rfl) (.ite (.of_cue rfl) ((fall _).of_same rfl)))

theorem State.feedFault_txOrder (c : Port) : TxOrderKept s (s.feedFault c) := by
  have told : TxOrderKept s ((s.setChan c ((s.chan c).shut true)).channelNotice .feedFault 0x00#8 c) :=
    (State.channelNotice_txOrder _ _ _ c).of_same rfl
  have idle (t : State) : TxOrderKept t ((t.onTake c TakeController.toIdle).retally c) :=
    (State.retally_txOrder _ c).of_same rfl
  by_cases taking : (s.chan c).take.st = .recording ∨ (s.chan c).take.st = .ending
  · rw [s.feedFault_of_taking c taking]
    exact ((told.trans (State.closeOpen_txOrder _ true c)).trans (State.channelNotice_txOrder _ _ _ c)).trans (idle _)
  · rw [s.feedFault_of_not_taking c taking]
    exact told.trans (idle _)

theorem State.corruptOutcome_txOrder (c : Port) : TxOrderKept s (s.corruptOutcome c) :=
  .ite ((State.feedFault_txOrder _ c).of_same rfl) (.of_cue rfl)

theorem State.acceptFrame_txOrder (c : Port) (h : Header) (payload : List Byte) :
    TxOrderKept s (s.acceptFrame c h payload) := by
  have live (t : State) : TxOrderKept t (if (t.chan c).port.feed = .live then t else t.feedBack c) :=
    .ite (.refl t) (t.feedBack_txOrder c)
  have arrived (r : FrameRecord) : TxOrderKept s _ :=
    ((live (s.onPort c fun p => { p with accepted := satInc p.accepted, consecBad := 0, waitTimer := some p.fwt })).of_same
      rfl).trans (.of_cue (t := State.frameArrival c r _) (State.countOpen_cue _ c _))
  exact .ite ((arrived _).trans (State.declareLost_txOrder _ c _)) (arrived _)

theorem State.judgeHeader_txOrder (c : Port) (got : List Byte) : TxOrderKept s (s.judgeHeader c got) :=
  .ite (.of_cue rfl) ((State.corruptOutcome_txOrder _ c).of_same rfl)

theorem State.judgeFrame_txOrder (c : Port) (h : Header) (got : List Byte) : TxOrderKept s (s.judgeFrame c h got) := by
  have good (t : State) (payload : List Byte) : TxOrderKept t (t.goodFrame c h payload) :=
    .ite (t.acceptFrame_txOrder c h payload) (.of_cue rfl)
  exact .ite ((good _ _).of_same rfl) ((State.corruptOutcome_txOrder _ c).of_same rfl)

theorem State.laneByte_txOrder (c : Port) (b : Byte) : TxOrderKept s (s.laneByte c b) := by
  unfold State.laneByte
  split
  · exact .refl s
  · split
    · exact .ite (.of_cue rfl) (.of_cue rfl)
    · exact .ite (s.judgeHeader_txOrder c _) (.of_cue rfl)
    · exact .ite (s.judgeFrame_txOrder c _ _) (.of_cue rfl)

theorem State.hearLane_txOrder (c : Port) (x : LaneBytes) : TxOrderKept s (s.hearLane c x) :=
  .ite ((TxOrderKept.foldl (fun t b => t.laneByte_txOrder c b) _ _).of_same rfl) (.refl s)

theorem State.waitingExpiry_txOrder (c : Port) : TxOrderKept s (s.waitingExpiry c) :=
  .ite (.ite ((State.declareLost_txOrder _ c _).of_same rfl) (.of_cue rfl)) (.refl s)

theorem State.takeHoldOver_txOrder (c : Port) : TxOrderKept s (s.takeHoldOver c) :=
  .ite (s.holdOverExpire_txOrder c) (.refl s)

/-! ### House ticks -/

theorem State.tickPart_txOrder (tick : TickInput) (preset : Bool) (part : TickPart) :
    TxOrderKept s (s.tickPart tick preset part) := by
  cases part with
  | presence c => exact s.samplePresence_txOrder _ c
  | placement c => exact s.takeTick_txOrder preset c
  | tally c => exact .of_cue rfl
  | waiting c => exact s.waitingExpiry_txOrder c
  | lane c b => exact s.hearLane_txOrder c _
  | drain i => exact s.takeDrain_txOrder i
  | window i => exact s.windowExpiry_txOrder i
  | commit i => exact s.commitExpiry_txOrder i
  | store k => exact s.storeExpiry_txOrder k
  | clear => exact s.clearExpiry_txOrder

/-- A tick keeps the order, whatever the Reference Unit has done before it. -/
theorem State.houseTick_withRef_txOrder (tick : TickInput) (r : RefUnit) :
    TxOrderKept s (State.houseTick tick { s with ref := r }) :=
  (TxOrderKept.foldl (fun t part => t.tickPart_txOrder tick _ part) _ _).of_same rfl

theorem State.pulse_txOrder (time : Nat) (tick : TickInput) : TxOrderKept s (s.pulse time tick) := by
  unfold State.pulse State.realPulse
  dsimp only
  split
  · split
    · exact s.houseTick_withRef_txOrder tick _
    · exact s.houseTick_withRef_txOrder tick _
    · exact s.houseTick_withRef_txOrder tick _
    · exact .ite ((State.engineNotice_txOrder _ _ _).of_same rfl)
        ((s.houseTick_withRef_txOrder tick _).trans (State.engineNotice_txOrder _ _ _))
  · exact .refl s

theorem State.lossOfReference_txOrder (time : Nat) (tick : TickInput) : TxOrderKept s (s.lossOfReference time tick) :=
  .ite ((s.houseTick_withRef_txOrder tick _).trans (State.engineNotice_txOrder _ _ _)) (.refl s)

theorem State.flywheelStep_txOrder (time : Nat) (tick : TickInput) : TxOrderKept s (s.flywheelStep time tick) :=
  .ite (s.houseTick_withRef_txOrder tick _) (.refl s)

/-! ### Cue-line commands -/

theorem State.arm_txOrder (payload : List Byte) : TxOrderKept s (s.arm payload).state := by
  unfold State.arm
  dsimp only
  split
  · exact .refl s
  · split
    · exact .refl s
    · split
      · exact .refl s
      · split
        · exact .refl s
        · exact (State.retally_txOrder _ _).of_same rfl

theorem State.disarm_txOrder (c : Port) : TxOrderKept s (s.disarm c).state := by
  unfold State.disarm
  split
  · exact (State.retally_txOrder _ c).of_same rfl
  · exact .refl s
  · exact .refl s
  · exact .refl s

theorem State.cueCommand_txOrder (q : Cue) (c : Port) : TxOrderKept s (s.cueCommand q c).state := by
  unfold State.cueCommand
  dsimp only
  split
  · exact .refl s
  · split
    · exact .refl s
    · split
      · exact .refl s
      · split
        · exact .refl s
        · exact .of_cue rfl

theorem State.stopCommand_txOrder (c : Port) : TxOrderKept s (s.stopCommand c).state := by
  unfold State.stopCommand
  dsimp only
  split
  · exact (State.retally_txOrder _ c).of_same rfl
  · split
    · exact .of_cue rfl
    · exact .refl s
  · exact .refl s
  · exact .refl s

theorem State.cutCommand_txOrder (c : Port) : TxOrderKept s (s.cutCommand c).state := by
  unfold State.cutCommand
  dsimp only
  split
  · exact (s.closeOpen_txOrder false c).trans (State.endOfTake_txOrder _ _ .cut c)
  · exact .refl s

theorem State.resetChannelCommand_txOrder (c : Port) : TxOrderKept s (s.resetChannelCommand c).state := by
  have reset (t : State) (i : RecIx) : TxOrderKept t (t.resetRecord c i) := .ite (.of_cue rfl) (.refl t)
  unfold State.resetChannelCommand
  dsimp only [State.done]
  exact (State.retally_txOrder _ c).after ((TxOrderKept.foldl reset _ _).of_same rfl)

theorem State.resumeCommand_txOrder : TxOrderKept s s.resumeCommand.state := by
  unfold State.resumeCommand
  split
  · exact .refl s
  · split
    · exact .refl s
    · split
      · exact .refl s
      · exact (State.issue_txOrder _).of_same rfl

theorem State.resetStoreCommand_txOrder : TxOrderKept s s.resetStoreCommand.state := by
  have givenUp (t : State) (i : RecIx) : TxOrderKept t (t.giveUp i) :=
    .ite ((t.transmit_txOrder _).trans (.of_cue rfl)) (.refl t)
  have tagsFreed : TxOrderKept s { s with link := { s.link with tags := Vector.replicate 16 .free } } := .of_cue rfl
  unfold State.resetStoreCommand
  dsimp only
  split
  · exact .refl s
  · exact (tagsFreed.trans (TxOrderKept.foldl givenUp _ _)).trans (.of_cue rfl)

theorem State.command_txOrder (kind : Byte) (need : Nat) (viaFeed viaAll : Bool) (channel : Byte) (act : State → Taken)
    (m : Heard) (effect : TxOrderKept s (act s).state) :
    TxOrderKept s (s.command kind need viaFeed viaAll channel act m) := by
  unfold State.command
  split
  · split
    · exact .ite (s.transmit_txOrder _) (effect.trans (State.transmit_txOrder _ _))
    · exact .ite effect (.refl s)
    · exact .ite effect (.refl s)
    · exact .refl s
  · exact .refl s

theorem State.onChannel_txOrder (c : Option Port) (act : Port → State → Taken)
    (effect : ∀ c, TxOrderKept s (act c s).state) : TxOrderKept s (s.onChannel c act).state := by
  cases c with
  | none => exact .refl s
  | some c => exact effect c

/-- A QUERY clears latches and counters, which leaves the queue as it is, and queues its STATUS (R179). -/
theorem State.hearQuery_txOrder (m : Heard) : TxOrderKept s (s.hearQuery m) := by
  have engine (d : Station) (clear : Bool) : TxOrderKept s (s.queryEngine d clear) :=
    (State.transmit_txOrder _ _).after ((State.transmit_txOrder _ _).after (.ite (.of_queue rfl rfl) (.of_queue rfl rfl)))
  have channel (d : Station) (clear : Bool) (c : Port) : TxOrderKept s (s.queryChannel d clear c) :=
    (State.transmit_txOrder _ _).after (.ite (.of_cue rfl) (.refl s))
  have refused (d : Station) (k : ReplyCode) (a : Bool) (c b : Byte) : TxOrderKept s (s.reply d k a c b) :=
    s.transmit_txOrder _
  unfold State.hearQuery
  dsimp only
  split
  · split
    · split
      · exact refused _ _ _ _ _
      · split
        · exact engine _ _
        · split
          · exact channel _ _ _
          · exact refused _ _ _ _ _
    · exact .refl s
  · exact .refl s

theorem State.hearUnknown_txOrder (kind : Byte) (m : Heard) : TxOrderKept s (s.hearUnknown kind m) := by
  unfold State.hearUnknown
  split
  · split
    · exact s.transmit_txOrder _
    · exact .refl s
  · exact .refl s

/-- A message keeps the order in the block that owns its kind. -/
theorem State.takeMessage_txOrder (kind : Byte) (m : Heard) : TxOrderKept s (s.takeMessage kind m) := by
  unfold State.takeMessage
  exact .ite (s.command_txOrder _ _ _ _ _ _ m (s.arm_txOrder m.payload)) <|
    .ite (s.command_txOrder _ _ _ _ _ _ m (s.onChannel_txOrder _ _ s.disarm_txOrder)) <|
    .ite (s.command_txOrder _ _ _ _ _ _ m (s.onChannel_txOrder _ _ (s.cueCommand_txOrder _))) <|
    .ite (s.command_txOrder _ _ _ _ _ _ m (s.onChannel_txOrder _ _ s.stopCommand_txOrder)) <|
    .ite (s.command_txOrder _ _ _ _ _ _ m (s.onChannel_txOrder _ _ s.cutCommand_txOrder)) <|
    .ite (s.command_txOrder _ _ _ _ _ _ m (s.onChannel_txOrder _ _ s.resetChannelCommand_txOrder)) <|
    .ite (s.command_txOrder _ _ _ _ _ _ m (.of_cue rfl)) <|
    .ite (s.command_txOrder _ _ _ _ _ _ m s.resumeCommand_txOrder) <|
    .ite (s.command_txOrder _ _ _ _ _ _ m s.resetStoreCommand_txOrder) <|
    .ite (s.hearQuery_txOrder m) <| .ite (.refl s) <| .ite (.refl s) <| .ite (.refl s) <|
    .ite (s.hearReport_txOrder m) <| .ite (s.takeStored_txOrder ⟨m, false⟩) <|
    .ite (s.hearUnstored_txOrder m) <| .ite (s.hearTakeover_txOrder m) (s.hearUnknown_txOrder kind m)

/-! ### The cue line -/

theorem State.waitIdle_txOrder (n : Nat) : TxOrderKept s (s.waitIdle n) := .of_queue rfl rfl

/-- The message on the line leaves the queue, and the others keep their order (R161, R162). -/
theorem State.removeSent_txOrder : TxOrderKept s s.removeSent := by
  unfold State.removeSent
  split
  · exact .of_shrink (dropAge_sublist _ _) rfl
  · exact .refl s

theorem State.abandonMessage_txOrder : TxOrderKept s s.abandonMessage := s.removeSent_txOrder.trans (.of_queue rfl rfl)

theorem State.idleSend_txOrder (gap : Nat) : TxOrderKept s (s.idleSend gap) := by
  unfold State.idleSend
  split
  · split
    · split
      · split
        · exact .of_queue rfl rfl
        · exact s.waitIdle_txOrder _
      · exact s.waitIdle_txOrder _
    · exact .refl s
  · exact .refl s
  · exact .refl s

theorem State.loseArbitration_txOrder : TxOrderKept s s.loseArbitration := .ite (.of_queue rfl rfl) (.refl s)

theorem State.takeClash_txOrder : TxOrderKept s s.takeClash :=
  .ite (s.abandonMessage_txOrder.trans (State.waitIdle_txOrder _ _)) (.refl s)

theorem State.takeSent_txOrder : TxOrderKept s s.takeSent := by
  have sent : TxOrderKept s { s with lineOut := s.lineOut ++ s.sentFrame } := .of_cue rfl
  exact .ite ((sent.trans (State.removeSent_txOrder _)).trans (State.waitIdle_txOrder _ _)) (.refl s)

theorem State.takeStuck_txOrder (inArbitration : Bool) : TxOrderKept s (s.takeStuck inArbitration) := by
  unfold State.takeStuck
  dsimp only
  split
  · refine (State.waitIdle_txOrder _ 0).after ?_
    split
    · exact .of_queue rfl rfl
    · exact .of_queue rfl rfl
    · exact .ite (.of_queue rfl rfl) ((State.abandonMessage_txOrder _).after (.of_queue rfl rfl))
  · exact .refl s

theorem State.hearFrame_txOrder (bits : List Bool) : TxOrderKept s (s.hearFrame bits) := by
  unfold State.hearFrame
  split
  · exact .of_queue rfl rfl
  · exact (s.waitIdle_txOrder _).trans (State.takeMessage_txOrder _ _ _)

theorem State.lineFrame_txOrder (gap : Nat) (bits : List Bool) : TxOrderKept s (s.lineFrame gap bits) := by
  unfold State.lineFrame
  dsimp only
  split
  · split
    · exact .refl s
    · exact s.hearFrame_txOrder _
    · exact .ite (s.waitIdle_txOrder _) (.ite (s.hearFrame_txOrder _) (s.waitIdle_txOrder _))
  · exact .refl s

/-! ### Start-up -/

theorem State.endStartUp_txOrder (cfg : Configuration) (source : Source) : TxOrderKept s (s.endStartUp cfg source) := by
  have configured : TxOrderKept s (s.configured cfg source) := .of_queue rfl rfl
  have started := configured.trans (State.notice_txOrder _ .start source.reason engineChannel 0#32)
  exact .ite (started.trans (State.haltStore_txOrder _ _)) started

theorem State.configurationRead_txOrder (image : List Byte) : TxOrderKept s (s.configurationRead image) :=
  .ite (.ite (s.endStartUp_txOrder _ _) (s.endStartUp_txOrder _ _)) (.refl s)

/-- RESET empties the queue (R170). -/
theorem State.assertReset_txOrder : TxOrderKept s s.assertReset :=
  fun _ => ⟨Nat.zero_le _, .nil, fun _ mem => nomatch mem⟩

/-! ### What a command keeps -/

theorem exec_txOrder (i : Instr) : ∃ t, exec i s = .next t ∧ TxOrderKept s t := by
  cases i with
  | powerOnReset => exact ⟨_, rfl, s.assertReset_txOrder⟩
  | configurationReadComplete image => exact ⟨_, rfl, s.configurationRead_txOrder image⟩
  | configurationReadTimeout => exact ⟨_, rfl, .ite (s.endStartUp_txOrder _ _) (.refl s)⟩
  | resetRelease straps => exact ⟨_, rfl, .ite (.of_cue rfl) (.refl s)⟩
  | referencePulse time tick => exact ⟨_, rfl, s.pulse_txOrder time tick⟩
  | lossDeadlineExpiry time tick => exact ⟨_, rfl, s.lossOfReference_txOrder time tick⟩
  | flywheelTick time tick => exact ⟨_, rfl, s.flywheelStep_txOrder time tick⟩
  | preset m => exact ⟨_, rfl, s.takeMessage_txOrder 0x16#8 m⟩
  | headerJudged port bytes => exact ⟨_, rfl, s.hearLane_txOrder port bytes⟩
  | frameComplete port bytes => exact ⟨_, rfl, s.hearLane_txOrder port bytes⟩
  | frameWaitingTimerExpiry port => exact ⟨_, rfl, s.waitingExpiry_txOrder port⟩
  | arm m => exact ⟨_, rfl, s.takeMessage_txOrder 0x10#8 m⟩
  | disarm m => exact ⟨_, rfl, s.takeMessage_txOrder 0x11#8 m⟩
  | cue m => exact ⟨_, rfl, s.takeMessage_txOrder 0x12#8 m⟩
  | stop m => exact ⟨_, rfl, s.takeMessage_txOrder 0x13#8 m⟩
  | cut m => exact ⟨_, rfl, s.takeMessage_txOrder 0x14#8 m⟩
  | resetChannel m => exact ⟨_, rfl, s.takeMessage_txOrder 0x15#8 m⟩
  | holdOverExpiry port => exact ⟨_, rfl, s.takeHoldOver_txOrder port⟩
  | coderCompletion coded => exact ⟨_, rfl, s.complete_txOrder coded⟩
  | drainTimerExpiry record => exact ⟨_, rfl, s.takeDrain_txOrder record⟩
  | reportHeard m => exact ⟨_, rfl, s.hearReport_txOrder m⟩
  | reportWindowExpiry record => exact ⟨_, rfl, s.windowExpiry_txOrder record⟩
  | storedHeard m => exact ⟨_, rfl, s.takeStored_txOrder m⟩
  | unstoredHeard m => exact ⟨_, rfl, s.hearUnstored_txOrder m⟩
  | takeoverHeard m => exact ⟨_, rfl, s.hearTakeover_txOrder m⟩
  | commitTimerExpiry record => exact ⟨_, rfl, s.commitExpiry_txOrder record⟩
  | acknowledgement tag status => exact ⟨_, rfl, s.acknowledge_txOrder tag status⟩
  | storeWaitingTimerExpiry tag => exact ⟨_, rfl, s.storeExpiry_txOrder tag⟩
  | storeHaltAssert => exact ⟨_, rfl, s.haltAssert_txOrder⟩
  | storeHaltRelease => exact ⟨_, rfl, .of_cue rfl⟩
  | resumeStore m => exact ⟨_, rfl, s.takeMessage_txOrder 0x17#8 m⟩
  | resetStore m => exact ⟨_, rfl, s.takeMessage_txOrder 0x18#8 m⟩
  | cleared => exact ⟨_, rfl, s.clearedReceived_txOrder⟩
  | clearTimerExpiry => exact ⟨_, rfl, s.clearExpiry_txOrder⟩
  | storeLinkOtherType kind => exact ⟨_, rfl, .refl s⟩
  | lineIdleSend gap => exact ⟨_, rfl, s.idleSend_txOrder gap⟩
  | lostArbitration => exact ⟨_, rfl, s.loseArbitration_txOrder⟩
  | clash => exact ⟨_, rfl, s.takeClash_txOrder⟩
  | messageSent => exact ⟨_, rfl, s.takeSent_txOrder⟩
  | lineStuck inArbitration => exact ⟨_, rfl, s.takeStuck_txOrder inArbitration⟩
  | cueLineFrame gap bits => exact ⟨_, rfl, s.lineFrame_txOrder gap bits⟩
  | unknownKind kind m => exact ⟨_, rfl, s.takeMessage_txOrder kind m⟩
  | query m => exact ⟨_, rfl, s.hearQuery_txOrder m⟩
  | syncMarkerFound port bytes => exact ⟨_, rfl, s.hearLane_txOrder port _⟩

theorem step_txOrder (s t : State) (h : step s = .next t) : TxOrderKept s t := by
  cases waiting : s.pending with
  | nil =>
    rw [step, waiting] at h
    cases h
    exact .refl s
  | cons c rest =>
    rw [step, waiting] at h
    obtain ⟨u, next, kept⟩ := exec_txOrder { s with pending := rest } c
    rw [show exec c { s with pending := rest } = .next t from h] at next
    cases next
    exact kept.of_same rfl

/-- Settles O58: a step keeps the order of the queue (`step_txOrder`). -/
theorem transmitQueueStaysOrdered : Obligations.TransmitQueueStaysOrdered :=
  fun s t ordered h => (transmitQueueOrdered_iff t).2 (step_txOrder s t h ((transmitQueueOrdered_iff s).1 ordered))

end Sys2Proof.Machine
end

section
/-! PROOFS. Messages heard: which of them the receive filter accepts, and what one leaves that does not act (R119, R165, R175
to R177). -/

namespace Sys2Proof.Machine

variable {s : State} {m : Heard}

/-! ### The receive filter (R165, R170) -/

/-- Whom a message is meant for: every station, this one, or a feed that a channel holds outside IDLE (R165). -/
theorem State.accepts_iff : s.accepts m = true ↔
    s.cue.enabled = true ∧ s.status.station ≠ some m.sender ∧
      (m.target = .all ∨ (∃ n, s.status.station = some n ∧ m.target = .station (n.setWidth 16)) ∨
        ∃ f c, m.target = .feed f ∧ (s.chan c).take.st ≠ .idle ∧ (s.chan c).port.feedId = some f) := by
  rw [State.accepts, Bool.and_eq_true, Bool.and_eq_true, bne_iff_ne, and_assoc]
  refine and_congr_right fun _ => and_congr_right fun _ => ?_
  cases target : m.target with
  | all => simp
  | station v => simp [@eq_comm _ v]
  | feed f => simp [State.holder_isSome]
  | other => simp

/-! ### Messages that are not accepted -/

theorem State.command_of_unaccepted (kind : Byte) (need : Nat) (viaFeed viaAll : Bool) (channel : Byte)
    (act : State → Taken) (unaccepted : s.accepts m = false) :
    s.command kind need viaFeed viaAll channel act m = s := if_neg (by simp [unaccepted])

theorem State.hearQuery_of_unaccepted (unaccepted : s.accepts m = false) : s.hearQuery m = s :=
  if_neg (by simp [unaccepted])

theorem State.hearUnknown_of_unaccepted (kind : Byte) (unaccepted : s.accepts m = false) : s.hearUnknown kind m = s :=
  if_neg (by simp [unaccepted])

/-- A twin message that is not addressed to a feed, is shorter than its kind or is not accepted reaches no record (R119). -/
theorem State.twinKey_eq_none {need : Nat}
    (idle : (∀ f, m.target ≠ .feed f) ∨ m.payload.length < need ∨ s.accepts m = false) : s.twinKey need m = none := by
  cases target : m.target with
  | feed f =>
    have unmet : ¬ (s.accepts m = true ∧ need ≤ m.payload.length) := fun ⟨accepted, enough⟩ => by
      obtain other | short | unaccepted := idle
      · exact other f target
      · omega
      · rw [accepted] at unaccepted
        cases unaccepted
    simp only [State.twinKey, target, if_neg unmet]
  | station v => simp only [State.twinKey, target]
  | all => simp only [State.twinKey, target]
  | other => simp only [State.twinKey, target]

theorem State.hearReport_of_no_key (noKey : s.twinKey 17 m = none) : s.hearReport m = s := by
  rw [State.hearReport, noKey]

theorem State.hearStored_of_no_key (noKey : s.twinKey 12 m = none) : s.hearStored m = s := by
  rw [State.hearStored, noKey]

theorem State.hearUnstored_of_no_key (noKey : s.twinKey 12 m = none) : s.hearUnstored m = s := by
  rw [State.hearUnstored, noKey]

theorem State.hearTakeover_of_no_key (noKey : s.twinKey 12 m = none) : s.hearTakeover m = s := by
  rw [State.hearTakeover, noKey]

/-- Every block applies the receive filter (R165). -/
theorem State.takeMessage_of_unaccepted (kind : Byte) (unaccepted : s.accepts m = false) : s.takeMessage kind m = s := by
  have command := @State.command_of_unaccepted s m
  have noKey (need : Nat) : s.twinKey need m = none := State.twinKey_eq_none (.inr (.inr unaccepted))
  simp only [State.takeMessage, State.hearArm, State.hearDisarm, State.hearCue, State.hearStop, State.hearCut,
    State.hearResetChannel, State.hearPreset, State.hearResumeStore, State.hearResetStore, command _ _ _ _ _ _ unaccepted,
    State.hearQuery_of_unaccepted unaccepted, State.hearReport_of_no_key (noKey _), State.hearStored_of_no_key (noKey _),
    State.hearUnstored_of_no_key (noKey _), State.hearTakeover_of_no_key (noKey _),
    State.hearUnknown_of_unaccepted kind unaccepted, ite_self]

/-! ### Commands that are too short, or in an addressing that is ignored (R175) -/

theorem State.command_of_short (kind : Byte) {need : Nat} (viaFeed viaAll : Bool) (channel : Byte) (act : State → Taken)
    (accepted : s.accepts m = true) (short : m.payload.length < need) :
    s.command kind need viaFeed viaAll channel act m = State.answered m .badField false 0xFF#8 kind s := by
  have unmet (via : Bool) : ¬ (via = true ∧ need ≤ m.payload.length) := fun ⟨_, enough⟩ => by omega
  rw [State.command, if_pos accepted]
  cases target : m.target with
  | station v => simp only [State.answered, target, if_pos short, engineChannel]
  | feed f => simp only [State.answered, target, if_neg (unmet _)]
  | all => simp only [State.answered, target, if_neg (unmet _)]
  | other => simp only [State.answered, target]

theorem State.hearQuery_of_short (accepted : s.accepts m = true) (short : m.payload.length < 2) :
    s.hearQuery m = State.answered m .badField false 0xFF#8 0x19#8 s := by
  rw [State.hearQuery, if_pos accepted]
  cases target : m.target with
  | station v => simp only [State.answered, target, if_pos short, engineChannel]
  | feed f => simp only [State.answered, target]
  | all => simp only [State.answered, target]
  | other => simp only [State.answered, target]

/-- A command that acts only when addressed to this station is ignored in every other addressing. -/
theorem State.command_of_unaddressed (kind : Byte) (need : Nat) (channel : Byte) (act : State → Taken)
    (unaddressed : ∀ v, m.target ≠ .station v) : s.command kind need false false channel act m = s := by
  unfold State.command
  split
  · cases target : m.target with
    | station v => exact absurd target (unaddressed v)
    | feed f => rfl
    | all => rfl
    | other => rfl
  · rfl

theorem State.hearQuery_of_unaddressed (unaddressed : ∀ v, m.target ≠ .station v) : s.hearQuery m = s := by
  unfold State.hearQuery
  split
  · cases target : m.target with
    | station v => exact absurd target (unaddressed v)
    | feed f => rfl
    | all => rfl
    | other => rfl
  · rfl

/-- A command that a feed does not address is ignored there. -/
theorem State.command_of_feed (kind : Byte) (need : Nat) (viaAll : Bool) (channel : Byte) (act : State → Taken)
    {f : FeedId} (target : m.target = .feed f) : s.command kind need false viaAll channel act m = s := by
  unfold State.command
  split
  · rw [target]
    rfl
  · rfl

/-! ### Messages of unknown kind (R177) -/

theorem State.hearUnknown_of_accepted (kind : Byte) (accepted : s.accepts m = true) :
    s.hearUnknown kind m = State.answered m .unknown false 0xFF#8 kind s := by
  rw [State.hearUnknown, if_pos accepted]
  cases target : m.target with
  | station v => simp only [State.answered, target, engineChannel]
  | feed f => simp only [State.answered, target]
  | all => simp only [State.answered, target]
  | other => simp only [State.answered, target]

/-- A kind that section 11.3 does not list has no owner. -/
theorem State.takeMessage_of_unknown {kind : Byte} (unknown : knownKind kind = false) :
    s.takeMessage kind m = s.hearUnknown kind m := by
  have other (k : Byte) (known : knownKind k = true) : kind ≠ k := fun same => by
    rw [same, known] at unknown
    cases unknown
  simp (disch := decide) only [State.takeMessage, other, if_false]

/-! ### The statements -/

/-- Settles O47: the filter, target by target (`State.accepts_iff`). -/
theorem receiveFilter : Obligations.ReceiveFilter := fun _ _ => State.accepts_iff

/-- Settles O52: short commands, messages that are not accepted, twin messages without a key, ignored addressings, and
unknown kinds. -/
theorem messagesThatDoNotAct : Obligations.MessagesThatDoNotAct := by
  unfold Obligations.MessagesThatDoNotAct
  refine ⟨fun s m accepted => ?_, fun s m kind unaccepted => ?_, fun s m => ⟨fun idle => ?_, fun idle => ?_⟩,
    fun s m => ⟨fun unaddressed => ?_, fun f target => ?_⟩, fun s m kind accepted unknown => ?_⟩
  · have short (kind : Byte) {need : Nat} (viaFeed viaAll : Bool) (channel : Byte) (act : State → Taken)
        (h : m.payload.length < need) := State.command_of_short kind viaFeed viaAll channel act accepted h
    refine ⟨fun h => congrArg _ (short _ _ _ _ _ h), fun h => congrArg _ (short _ _ _ _ _ h),
      fun h => congrArg _ (short _ _ _ _ _ h), fun h => congrArg _ (State.hearQuery_of_short accepted h), fun empty => ?_⟩
    have h : m.payload.length < 1 := by simp [empty]
    exact ⟨congrArg _ (short _ _ _ _ _ h), congrArg _ (short _ _ _ _ _ h), congrArg _ (short _ _ _ _ _ h),
      congrArg _ (short _ _ _ _ _ h)⟩
  · have same (kind : Byte) : Host.Outcome.next (s.takeMessage kind m) = (.next s : Host.Outcome State Fault Refusal) :=
      congrArg _ (State.takeMessage_of_unaccepted kind unaccepted)
    exact ⟨State.takeMessage_of_unaccepted kind unaccepted, same 0x10#8, same 0x11#8, same 0x12#8, same 0x13#8,
      same 0x14#8, same 0x15#8, same 0x16#8, same 0x17#8, same 0x18#8, same 0x19#8, same 0x30#8, same 0x31#8,
      same 0x32#8, same 0x33#8, same kind⟩
  · exact congrArg _ (State.hearReport_of_no_key (State.twinKey_eq_none (idle.imp_right .inl)))
  · have noKey : s.twinKey 12 m = none := State.twinKey_eq_none (idle.imp_right .inl)
    exact ⟨congrArg _ (State.hearStored_of_no_key noKey), congrArg _ (State.hearUnstored_of_no_key noKey),
      congrArg _ (State.hearTakeover_of_no_key noKey)⟩
  · have ignored (kind : Byte) (need : Nat) (channel : Byte) (act : State → Taken) :=
      State.command_of_unaddressed (s := s) kind need channel act unaddressed
    exact ⟨congrArg _ (ignored _ _ _ _), congrArg _ (ignored _ _ _ _), congrArg _ (ignored _ _ _ _),
      congrArg _ (State.hearQuery_of_unaddressed unaddressed)⟩
  · exact ⟨congrArg _ (State.command_of_feed _ _ _ _ _ target), congrArg _ (State.command_of_feed _ _ _ _ _ target)⟩
  · exact congrArg _ ((State.takeMessage_of_unknown unknown).trans (State.hearUnknown_of_accepted kind accepted))

end Sys2Proof.Machine
end

section
/-! PROOFS. The cue line: sending, lost arbitration, clashes and a stuck line, and the frames heard on it (R159 to
R164, R168). -/

namespace Sys2Proof.Machine

variable (s : State)

/-! ### Sending (R159 to R162, R168) -/

theorem State.idleSend_of_idle {n gap : Nat} {e : TxEntry} {rest : List TxEntry} (enabled : s.cue.enabled = true)
    (waiting : s.cue.activity = .waiting n) (idle : 11 ≤ n + gap) (queue : s.cue.queue = e :: rest) :
    s.idleSend gap = { s with cue := { s.cue with activity := .sending, onLine := some e.age } } := by
  rw [State.idleSend, waiting]
  dsimp only
  rw [if_pos enabled, if_pos (show n + gap ≥ idleBits from idle), queue]

theorem State.loseArbitration_of_sending (sending : s.cue.activity = .sending) :
    s.loseArbitration = { s with cue := { s.cue with activity := .receiving, onLine := none } } := if_pos sending

section onLine

variable {s} {a : Nat} (onLine : s.cue.onLine = some a)
include onLine

theorem State.removeSent_of_onLine : s.removeSent =
    { s with cue := { s.cue with queue := s.cue.queue.filter fun e => e.age != a } } := by
  rw [State.removeSent, onLine]
  rfl

theorem State.abandonMessage_of_onLine : s.abandonMessage = { s with cue := { s.cue with
    clash := min 65535 (s.cue.clash + 1), queue := s.cue.queue.filter fun e => e.age != a } } := by
  rw [State.abandonMessage, State.removeSent_of_onLine onLine]
  rfl

theorem State.sentFrame_of_onLine {e : TxEntry} (found : s.cue.queue.find? (fun x => x.age == a) = some e) :
    s.sentFrame = [frameBits (frameFields e.cls s.stationNumber e.msg.kind e.msg.target e.msg.payload)] := by
  simp only [State.sentFrame, onLine, found]

theorem State.takeClash_of_sending (sending : s.cue.activity = .sending) : s.takeClash = { s with cue := { s.cue with
    activity := .waiting 0, onLine := none, clash := min 65535 (s.cue.clash + 1)
    queue := s.cue.queue.filter fun e => e.age != a } } := by
  rw [State.takeClash, if_pos sending, State.abandonMessage_of_onLine onLine]
  rfl

theorem State.takeSent_of_sending (sending : s.cue.activity = .sending) {e : TxEntry}
    (found : s.cue.queue.find? (fun x => x.age == a) = some e) : s.takeSent = { s with
      lineOut := s.lineOut ++ [frameBits (frameFields e.cls s.stationNumber e.msg.kind e.msg.target e.msg.payload)]
      cue := { s.cue with
        activity := .waiting 8, onLine := none, queue := s.cue.queue.filter fun x => x.age != a } } := by
  have left := State.removeSent_of_onLine (s := { s with lineOut := s.lineOut ++ s.sentFrame }) onLine
  rw [State.takeSent, if_pos sending]
  dsimp only
  rw [left, State.sentFrame_of_onLine onLine found]
  rfl

end onLine

/-! ### A stuck line (R163) -/

theorem exec_lineStuck (a : Bool) : exec (.lineStuck a) s = .next (s.takeStuck a) := rfl

/-- LINE STUCK is set, and the interface waits for idle with nothing counted. -/
def State.stuck (s : State) : State :=
  { s with cue := { s.cue with stuckLatch := true, activity := .waiting 0, onLine := none } }

/-- What is being sent or received is settled (log 16). -/
def State.settleLine (inArbitration : Bool) (s : State) : State :=
  match s.cue.activity with
  | .waiting _ => s
  | .receiving => s.countRxBad
  | .sending => if inArbitration then s.countRxBad else s.abandonMessage

theorem State.settleLine_of_waiting {n : Nat} (a : Bool) (waiting : s.cue.activity = .waiting n) : s.settleLine a = s := by
  rw [State.settleLine, waiting]

/-- A frame that is received, also as the winner of an arbitration, has failed its stuffing check. -/
theorem State.settleLine_of_received {a : Bool}
    (received : s.cue.activity = .receiving ∨ (s.cue.activity = .sending ∧ a = true)) : s.settleLine a = s.countRxBad := by
  obtain receiving | ⟨sending, rfl⟩ := received
  · rw [State.settleLine, receiving]
  · rw [State.settleLine, sending]
    rfl

/-- A message whose recessive bit was overridden outside the arbitration field has clashed. -/
theorem State.settleLine_of_clashed (sending : s.cue.activity = .sending) : s.settleLine false = s.abandonMessage := by
  rw [State.settleLine, sending]
  rfl

/-- The latch and what is settled do not touch each other. -/
theorem State.takeStuck_of_enabled (a : Bool) (enabled : s.cue.enabled = true) : s.takeStuck a = (s.settleLine a).stuck := by
  have abandoned : State.waitIdle 0 { s with cue := { s.cue with stuckLatch := true } }.abandonMessage =
      s.abandonMessage.stuck := by
    unfold State.abandonMessage State.removeSent
    cases s.cue.onLine <;> rfl
  rw [State.takeStuck, if_pos enabled]
  dsimp only
  split
  · rename_i waiting
    rw [s.settleLine_of_waiting a waiting]
    rfl
  · rename_i receiving
    rw [s.settleLine_of_received (.inl receiving)]
    rfl
  · rename_i sending
    cases a with
    | true =>
      rw [s.settleLine_of_received (.inr ⟨sending, rfl⟩)]
      rfl
    | false =>
      rw [s.settleLine_of_clashed sending]
      exact abandoned

/-! ### Frames heard (R159, R164) -/

/-- The interface waits for idle with what the bits of a frame count toward it (R159). -/
def State.heard (bits : List Bool) (s : State) : State :=
  { s with cue := { s.cue with activity := .waiting (min 11 (countAfter bits)), onLine := none } }

/-- A frame that begins at idle, or goes on after lost arbitration, is heard from its start bit on (R159, R160). -/
theorem State.lineFrame_of_idle (gap : Nat) (bits : List Bool) (enabled : s.cue.enabled = true)
    (ready : s.cue.activity = .receiving ∨ ∃ n, s.cue.activity = .waiting n ∧ 11 ≤ n + gap) :
    s.lineFrame gap (false :: bits) = s.hearFrame (false :: bits) := by
  obtain receiving | ⟨n, waiting, idle⟩ := ready
  · simp [State.lineFrame, enabled, receiving]
  · simp [State.lineFrame, enabled, waiting, idleBits, idle]

/-- A frame under way before idle is not received: only its recessive run counts (R159). -/
theorem State.lineFrame_of_busy {n gap : Nat} (bits : List Bool) (enabled : s.cue.enabled = true)
    (waiting : s.cue.activity = .waiting n) (busy : n + gap < 11) :
    s.lineFrame gap (false :: bits) = s.waitIdle (trailingRecessive (false :: bits)) := by
  simp [State.lineFrame, enabled, waiting, idleBits, Nat.not_le.2 busy]

theorem State.hearFrame_of_bad {bits : List Bool} (bad : receiveFrame bits = none) :
    s.hearFrame bits = s.countRxBad.heard bits := by
  rw [State.hearFrame, bad]
  rfl

theorem State.hearFrame_of_good {bits : List Bool} {f : RxFrame} (good : receiveFrame bits = some f) :
    s.hearFrame bits = (s.heard bits).takeMessage f.kind f.heard := by
  rw [State.hearFrame, good]
  rfl

/-! ### The count toward idle (R159; log 15) -/

/-- A frame that a fault ends has no end field to count from (R164). -/
theorem countAfter_of_fault {bits : List Bool} (fault : frameParts bits = none) :
    countAfter bits = trailingRecessive bits := by
  rw [countAfter, fault]

/-- A frame that has gone through to its end field counts from there. -/
theorem countAfter_of_parts {bits data tail : List Bool}
    (parts : frameParts bits = some (data, tail ++ List.replicate linePad true)) :
    countAfter bits = trailingRecessive tail := by
  rw [countAfter, parts]
  simp

/-! ### The statements -/

/-- Settles O49: sending, then a stuck line by what the interface is doing. -/
theorem sendingAndStuckLine : Obligations.SendingAndStuckLine := by
  unfold Obligations.SendingAndStuckLine
  refine ⟨fun s => ⟨fun n gap e rest enabled waiting idle queue => ?_, fun sending => ?_, fun a sending onLine => ?_,
    fun a e sending onLine found => ?_⟩, fun s enabled => ⟨fun n a waiting => ?_, fun a received => ?_,
    fun k sending onLine => ?_⟩⟩
  · exact congrArg _ (s.idleSend_of_idle enabled waiting idle queue)
  · exact congrArg _ (s.loseArbitration_of_sending sending)
  · exact congrArg _ (State.takeClash_of_sending onLine sending)
  · exact congrArg _ (State.takeSent_of_sending onLine sending found)
  · rw [exec_lineStuck, s.takeStuck_of_enabled a enabled, s.settleLine_of_waiting a waiting]
    rfl
  · rw [exec_lineStuck, s.takeStuck_of_enabled a enabled, s.settleLine_of_received received]
    rfl
  · rw [exec_lineStuck, s.takeStuck_of_enabled false enabled, s.settleLine_of_clashed sending,
      State.abandonMessage_of_onLine onLine]
    rfl

/-- Settles O50: the frame by the line at its start, the count by its parts, and the message by its kind. -/
theorem frameReceived : Obligations.FrameReceived := by
  unfold Obligations.FrameReceived
  refine ⟨fun s gap bits enabled ready => ⟨fun bad => ?_, fun f good => ?_⟩,
    fun s n gap bits enabled waiting busy => ?_, fun bits => ⟨countAfter_of_fault, fun data tail => countAfter_of_parts,
    fun reached n => countAfter_append _ n (List.cons_ne_nil _ _) reached⟩, fun s m => ?_⟩
  · exact congrArg _ ((s.lineFrame_of_idle gap bits enabled ready).trans (s.hearFrame_of_bad bad))
  · exact congrArg _ ((s.lineFrame_of_idle gap bits enabled ready).trans (s.hearFrame_of_good good))
  · exact congrArg _ (s.lineFrame_of_busy bits enabled waiting busy)
  · exact ⟨rfl, rfl, rfl, rfl, rfl, rfl, rfl, rfl, rfl, rfl, rfl, rfl, rfl, rfl, rfl, rfl, rfl, fun _ => rfl⟩

end Sys2Proof.Machine
end

section
/-! PROOFS. The frames the engine sends, read back: the bits of a byte, the stuffing undone bit by bit, and the fields of a
frame received whole (R157, R158, R164). -/

namespace Sys2Proof.Machine

/-! ### The bits of a byte -/

@[simp] theorem length_byteBits (b : Byte) : (byteBits b).length = 8 := rfl

theorem bitsValue_byteBits (b : Byte) : bitsValue (byteBits b) = b.toNat := by
  revert b
  decide

theorem length_flatMap_byteBits (bytes : List Byte) : (bytes.flatMap byteBits).length = 8 * bytes.length := by
  simp [List.length_flatMap, Nat.mul_comm]

theorem bitsToBytes_byteBits (b : Byte) (rest : List Bool) : bitsToBytes (byteBits b ++ rest) = b :: bitsToBytes rest := by
  have value := congrArg (BitVec.ofNat 8) (bitsValue_byteBits b)
  rw [BitVec.ofNat_toNat, BitVec.setWidth_eq] at value
  exact congrArg (· :: bitsToBytes rest) value

theorem bitsToBytes_flatMap (bytes : List Byte) : bitsToBytes (bytes.flatMap byteBits) = bytes := by
  induction bytes with
  | nil => rfl
  | cons b bytes ih => rw [List.flatMap_cons, bitsToBytes_byteBits, ih]

/-! ### Stuffing undone (R158) -/

/-- The length of the run that a bit ends, after a run of a level: a stuff bit comes between after a run of six. -/
def runAfter (b level : Bool) (run : Nat) : Nat :=
  if run = 6 then if b = !level then 2 else 1 else if b = level then run + 1 else 1

/-- A bit of the frame, with the stuff bit before it where there is one. -/
theorem stuff_cons (b : Bool) (bits : List Bool) (level : Bool) (run : Nat) : stuff (b :: bits) level run =
    (if run = 6 then [!level, b] else [b]) ++ stuff bits b (runAfter b level run) := by
  unfold runAfter
  rw [stuff]
  split_ifs <;> rfl

/-- A bit of the payload or the check is collected. -/
theorem destuff_cons (b : Bool) (bits rest : List Bool) (level : Bool) (run need : Nat) (got : List Bool) :
    destuff (stuff (b :: bits) level run ++ rest) level run (need + 1) false got =
      destuff (stuff bits b (runAfter b level run) ++ rest) b (runAfter b level run) need false (b :: got) := by
  rw [stuff_cons]
  unfold runAfter
  by_cases full : run = 6 <;> simp [full, destuff]

/-- A bit of the head is collected while more of the head is to come. -/
theorem destuff_cons_head (b : Bool) (bits rest : List Bool) (level : Bool) (run need : Nat) (got : List Bool) :
    destuff (stuff (b :: bits) level run ++ rest) level run (need + 2) true got =
      destuff (stuff bits b (runAfter b level run) ++ rest) b (runAfter b level run) (need + 1) true (b :: got) := by
  rw [stuff_cons]
  unfold runAfter
  by_cases full : run = 6 <;> simp [full, destuff]

/-- The last bit of the head ends the payload length, which says how many bits are to come. -/
theorem destuff_last_of_head (b : Bool) (bits rest : List Bool) (level : Bool) (run : Nat) (got : List Bool)
    (room : bitsValue ((b :: got).take 8).reverse ≤ 32) :
    destuff (stuff (b :: bits) level run ++ rest) level run 1 true got =
      destuff (stuff bits b (runAfter b level run) ++ rest) b (runAfter b level run)
        (8 * bitsValue ((b :: got).take 8).reverse + 16) false (b :: got) := by
  rw [stuff_cons]
  unfold runAfter
  have fits : ¬ 32 < bitsValue ((got.take 7).reverse ++ [b]) := by simpa using room
  by_cases full : run = 6 <;> simp [full, destuff, fits]

/-- All the bits to come are collected, and the line goes on behind the last stuff bit. -/
theorem destuff_stuff (bits rest : List Bool) (level : Bool) (run : Nat) (got : List Bool) :
    destuff (stuff bits level run ++ rest) level run bits.length false got = some (got.reverse ++ bits, rest) := by
  induction bits generalizing level run got with
  | nil =>
    by_cases full : run = 6
    · simp [stuff, destuff, full]
    · cases rest <;> simp [stuff, destuff, full]
  | cons b bits ih =>
    rw [List.length_cons, destuff_cons, ih]
    simp

/-- A head is collected, and behind it as many bits as its payload length says. -/
theorem destuff_stuff_head (head body rest : List Bool) (level : Bool) (run : Nat) (got : List Bool) (nonempty : head ≠ [])
    (room : bitsValue ((head.reverse ++ got).take 8).reverse ≤ 32)
    (length : body.length = 8 * bitsValue ((head.reverse ++ got).take 8).reverse + 16) :
    destuff (stuff (head ++ body) level run ++ rest) level run head.length true got =
      some (got.reverse ++ (head ++ body), rest) := by
  induction head generalizing level run got with
  | nil => exact absurd rfl nonempty
  | cons b head ih =>
    rw [List.reverse_cons, List.append_assoc, List.singleton_append] at room length
    cases head with
    | nil =>
      have ended := destuff_last_of_head b body rest level run got room
      rw [List.reverse_nil, List.nil_append] at length
      rw [← length, destuff_stuff] at ended
      simpa using ended
    | cons b' head =>
      rw [List.cons_append, List.length_cons, List.length_cons, destuff_cons_head]
      rw [← List.length_cons (a := b'), ih _ _ _ (List.cons_ne_nil _ _) room length]
      simp

/-! ### Numbers in two bytes -/

theorem fromBE_be16 (n : Nat) : fromBE (be16 n) = n % 65536 := by
  simp only [fromBE, be16, List.foldl_cons, List.foldl_nil, BitVec.toNat_ofNat]
  omega

theorem crc16_lt (bytes : List Byte) : crc16 bytes < 65536 := BitVec.isLt _

/-! ### A frame of the engine (R157) -/

/-- The fields of a frame followed by their check. -/
def checked (fields : List Byte) : List Byte := fields ++ be16 (crc16 fields)

theorem length_targetBytes (target : Target) : (Target.bytes target).length = 3 := by cases target <;> rfl

section frame

variable (cls : Nat) (station : Station) (kind : Byte) (target : Target) (payload : List Byte)

/-- The fields of a frame up to its payload length. -/
def frameHead : List Byte :=
  BitVec.ofNat 8 (cls * 32 + station.toNat) :: kind :: (Target.bytes target ++ [BitVec.ofNat 8 payload.length])

theorem frameFields_eq : frameFields cls station kind target payload =
    frameHead cls station kind target payload ++ payload := by
  simp [frameFields, frameHead]

theorem checked_frameFields : checked (frameFields cls station kind target payload) =
    frameHead cls station kind target payload ++
      (payload ++ be16 (crc16 (frameFields cls station kind target payload))) := by
  simp [checked, frameFields, frameHead]

theorem length_frameHead : ((frameHead cls station kind target payload).flatMap byteBits).length = headBits := by
  simp [frameHead, length_targetBytes, headBits]

/-- The last byte of the head is the payload length. -/
theorem bitsValue_frameHead (short : payload.length ≤ 32) :
    bitsValue ((((frameHead cls station kind target payload).flatMap byteBits).reverse ++ []).take 8).reverse =
      payload.length := by
  have last : (((frameHead cls station kind target payload).flatMap byteBits).reverse ++ []).take 8 =
      (byteBits (BitVec.ofNat 8 payload.length)).reverse := by
    simp [frameHead]
  rw [last, List.reverse_reverse, bitsValue_byteBits]
  exact Nat.mod_eq_of_lt (by omega)

/-- A frame is collected whole, and its end field and the line follow it (R158). -/
theorem frameParts_frameBits (short : payload.length ≤ 32) :
    frameParts (frameBits (frameFields cls station kind target payload)) =
      some ((checked (frameFields cls station kind target payload)).flatMap byteBits,
        List.replicate 8 true ++ List.replicate linePad true) := by
  have size := bitsValue_frameHead cls station kind target payload short
  have length := length_frameHead cls station kind target payload
  have collected := destuff_stuff_head ((frameHead cls station kind target payload).flatMap byteBits)
    ((payload ++ be16 (crc16 (frameFields cls station kind target payload))).flatMap byteBits)
    (List.replicate 8 true ++ List.replicate linePad true) false 1 [] (List.ne_nil_of_length_eq_add_one length)
    (by rw [size]; exact short) (by rw [size, length_flatMap_byteBits, List.length_append]; exact Nat.mul_add 8 _ 2)
  rw [length, List.reverse_nil, List.nil_append, ← List.flatMap_append, ← checked_frameFields] at collected
  rw [frameBits, frameParts, List.append_assoc]
  exact collected

/-- Bytes whose check follows them, with a whole end field, are received (R164). -/
theorem receiveFrame_of_checked {bits more : List Bool} {fields : List Byte}
    (parts : frameParts bits = some ((checked fields).flatMap byteBits, List.replicate 8 true ++ more)) :
    receiveFrame bits = some
      { kind := (checked fields).getD 1 0#8
        heard :=
          { sender := BitVec.ofNat 5 (field (checked fields) 0 1)
            target := parseTarget ((checked fields).getD 2 0#8) (BitVec.ofNat 16 (field (checked fields) 3 2))
            payload := fields.drop 6 } } := by
  have fieldsOf : (checked fields).take ((checked fields).length - 2) = fields := by simp [checked, be16]
  have checkOf : field (checked fields) ((checked fields).length - 2) 2 = crc16 fields := by
    have behind : ((checked fields).drop ((checked fields).length - 2)).take 2 = be16 (crc16 fields) := by
      simp [checked, be16]
    rw [field, behind, fromBE_be16, Nat.mod_eq_of_lt (crc16_lt fields)]
  simp only [receiveFrame, parts, bitsToBytes_flatMap, fieldsOf, checkOf]
  exact if_pos ⟨trivial, rfl⟩

/-- The target of a frame is read as it was written (section 11.3). -/
theorem parseTarget_bytes (known : target ≠ .other) (rest : List Byte) :
    parseTarget ((Target.bytes target ++ rest).getD 0 0#8) (BitVec.ofNat 16 (field (Target.bytes target ++ rest) 1 2)) =
      target := by
  have value (v : BitVec 16) : BitVec.ofNat 16 (fromBE (be16 v.toNat)) = v := by
    rw [fromBE_be16, Nat.mod_eq_of_lt v.isLt, BitVec.ofNat_toNat, BitVec.setWidth_eq]
  cases target with
  | station v => exact congrArg Target.station (value v)
  | feed f => exact congrArg Target.feed (value f)
  | all => rfl
  | other => exact absurd rfl known

/-- The station number is the low part of the arbitration byte (R157). -/
theorem sender_of_arbitration : BitVec.ofNat 5 (BitVec.ofNat 8 (cls * 32 + station.toNat)).toNat = station := by
  apply BitVec.eq_of_toNat_eq
  simp only [BitVec.toNat_ofNat]
  omega

theorem receiveFrame_frameBits (known : target ≠ .other) (short : payload.length ≤ 32) :
    receiveFrame (frameBits (frameFields cls station kind target payload)) =
      some { kind := kind, heard := { sender := station, target := target, payload := payload } } := by
  have behind : (frameFields cls station kind target payload).drop 6 = payload := by
    rw [frameFields_eq]
    exact List.drop_left' (by simp [frameHead, length_targetBytes])
  have fields : checked (frameFields cls station kind target payload) =
      BitVec.ofNat 8 (cls * 32 + station.toNat) :: kind :: (Target.bytes target ++ (BitVec.ofNat 8 payload.length ::
        (payload ++ be16 (crc16 (frameFields cls station kind target payload))))) := by
    simp [checked_frameFields, frameHead]
  have sender (rest : List Byte) :
      BitVec.ofNat 5 (field (BitVec.ofNat 8 (cls * 32 + station.toNat) :: rest) 0 1) = station :=
    (congrArg _ (Nat.zero_add _)).trans (sender_of_arbitration cls station)
  rw [receiveFrame_of_checked (frameParts_frameBits cls station kind target payload short), behind, fields, sender]
  exact congrArg (fun t => some (RxFrame.mk kind (Heard.mk station t payload))) (parseTarget_bytes target known _)

end frame

/-! ### The statement -/

/-- Settles O51: the stuffing is undone bit by bit (`frameParts_frameBits`), and behind the check the count begins afresh. -/
theorem framesRoundTrip : Obligations.FramesRoundTrip :=
  fun cls station kind target payload _ known short =>
    ⟨receiveFrame_frameBits cls station kind target payload known short,
      countAfter_of_parts (frameParts_frameBits cls station kind target payload short)⟩

end Sys2Proof.Machine
end

section
/-! PROOFS. Start-up and STATUS: what the end of start-up leaves with the notices it raises, which images are bad (R171 to
R174), and what a QUERY snapshots and clears (R179 to R182). -/

namespace Sys2Proof.Machine

/-! ### Commands as the operations they call -/

theorem exec_resetRelease (straps : Station) (s : State) :
    exec (.resetRelease straps) s = .next (s.releaseReset straps) := rfl

theorem exec_configurationReadComplete (image : List Byte) (s : State) :
    exec (.configurationReadComplete image) s = .next (s.configurationRead image) := rfl

theorem exec_configurationReadTimeout (s : State) :
    exec .configurationReadTimeout s = .next s.configurationMissing := rfl

theorem exec_query (m : Heard) (s : State) : exec (.query m) s = .next (s.hearQuery m) := rfl

/-! ### What a notice leaves of the interface (R167, R178) -/

/-- Of an interface only the transmit queue has changed, with the age count and the latch that go with it. -/
structure CueLine.LineKept (l l' : CueLine) : Prop where
  enabled : l'.enabled = l.enabled
  activity : l'.activity = l.activity
  onLine : l'.onLine = l.onLine
  stuckLatch : l'.stuckLatch = l.stuckLatch
  clash : l'.clash = l.clash
  rxBad : l'.rxBad = l.rxBad

theorem CueLine.LineKept.refl (l : CueLine) : l.LineKept l := ⟨rfl, rfl, rfl, rfl, rfl, rfl⟩

theorem CueLine.LineKept.trans {l l' l'' : CueLine} (h : l.LineKept l') (h' : l'.LineKept l'') : l.LineKept l'' :=
  ⟨h'.enabled.trans h.enabled, h'.activity.trans h.activity, h'.onLine.trans h.onLine,
    h'.stuckLatch.trans h.stuckLatch, h'.clash.trans h.clash, h'.rxBad.trans h.rxBad⟩

theorem CueLine.join_lineKept (l : CueLine) (swap : Bool) (m : Message) : l.LineKept (l.join swap m) := by
  obtain ⟨-, joined⟩ | dropped | ⟨x, -, displacing⟩ := l.join_cases swap m
  · rw [joined]
    exact ⟨rfl, rfl, rfl, rfl, rfl, rfl⟩
  · rw [dropped]
    exact ⟨rfl, rfl, rfl, rfl, rfl, rfl⟩
  · rw [displacing]
    exact ⟨rfl, rfl, rfl, rfl, rfl, rfl⟩

section notice

variable (s : State) (cause : Cause) (reason channel : Byte) (count : HouseCount)

theorem State.notice_lineKept : s.cue.LineKept (s.notice cause reason channel count).cue := by
  unfold State.notice
  split
  · exact s.cue.join_lineKept _ _
  · exact .refl _

/-- An entry joins behind a queue that holds no higher class. -/
theorem placeEntry_of_behind {e : TxEntry} {q : List TxEntry} (behind : ∀ x ∈ q, x.cls ≤ e.cls) :
    placeEntry e q = q ++ [e] := by
  induction q with
  | nil => rfl
  | cons x rest ih =>
    obtain ⟨first, rest'⟩ := List.forall_mem_cons.1 behind
    rw [placeEntry, if_pos first, ih rest', List.cons_append]

/-- Behind notices alone, and with room for it, a notice is the last message of the queue unless the mask disables it. -/
theorem State.notice_queue (room : s.cue.queue.length < 16) (notices : ∀ x ∈ s.cue.queue,
      x.cls = Message.cls s.status.cfg.classSwap (.notice cause reason channel count)) :
    (s.notice cause reason channel count).cue.queue = s.cue.queue ++
      if s.status.cfg.mask.getLsbD (cause.code - 1) = true then
        [s.cue.entry s.status.cfg.classSwap (.notice cause reason channel count)] else [] := by
  unfold State.notice
  split
  · rw [State.transmit, s.cue.join_of_room _ room]
    exact placeEntry_of_behind fun x mem => (notices x mem).le
  · exact (List.append_nil _).symm

end notice

/-! ### The end of start-up (R174) -/

section endStartUp

variable (s : State) (cfg : Configuration) (source : Source)

/-- The configuration in force, and START raised. -/
def State.started : State := (s.configured cfg source).notice .start source.reason engineChannel 0#32

theorem State.endStartUp_eq : s.endStartUp cfg source =
    if s.storeHalt = true then (s.started cfg source).haltStore 0x01#8 else s.started cfg source := by
  have level : (s.started cfg source).storeHalt = s.storeHalt := State.notice_storeHalt _ _ _ _ _
  rw [← level]
  rfl

/-- The enable latch cleared, with STORE HALTED latched (R149). -/
def State.latchCleared (s : State) : State := { s with link := { s.link with latch := false, haltedLatch := true } }

theorem State.started_link : (s.started cfg source).link = s.link := State.notice_link _ _ _ _ _

/-- STORE-HALT asserted halts the store as soon as START has been raised. -/
theorem State.endStartUp_of_halting (asserted : s.storeHalt = true) (latched : s.link.latch = true) :
    s.endStartUp cfg source = (s.started cfg source).latchCleared.notice .storeHalted 0x01#8 0xFF#8 s.ref.count := by
  have count : (s.started cfg source).ref.count = s.ref.count := congrArg (·.count) (State.notice_ref _ _ _ _ _)
  have latched' : (s.started cfg source).link.latch = true := by rw [s.started_link, latched]
  rw [s.endStartUp_eq, if_pos asserted, State.haltStore_of_enabled _ _ latched', count]
  rfl

theorem State.endStartUp_of_unhalted (unhalted : ¬ (s.storeHalt = true ∧ s.link.latch = true)) :
    s.endStartUp cfg source = s.started cfg source := by
  rw [s.endStartUp_eq]
  split
  · rename_i asserted
    exact State.haltStore_of_halted _ _ (by simpa [s.started_link, asserted] using unhalted)
  · rfl

theorem State.endStartUp_status : (s.endStartUp cfg source).status = (s.configured cfg source).status := by
  by_cases halting : s.storeHalt = true ∧ s.link.latch = true
  · obtain ⟨asserted, latched⟩ := halting
    simp [s.endStartUp_of_halting cfg source asserted latched, State.latchCleared, State.started]
  · simp [s.endStartUp_of_unhalted cfg source halting, State.started]

theorem State.endStartUp_link : (s.endStartUp cfg source).link =
    if s.storeHalt = true ∧ s.link.latch = true then { s.link with latch := false, haltedLatch := true }
    else s.link := by
  split
  · rename_i halting
    obtain ⟨asserted, latched⟩ := halting
    simp [s.endStartUp_of_halting cfg source asserted latched, State.latchCleared, s.started_link]
  · rename_i unhalted
    rw [s.endStartUp_of_unhalted cfg source unhalted, s.started_link]

theorem State.endStartUp_lineKept : (s.configured cfg source).cue.LineKept (s.endStartUp cfg source).cue := by
  have started : (s.configured cfg source).cue.LineKept (s.started cfg source).cue := State.notice_lineKept _ _ _ _ _
  by_cases halting : s.storeHalt = true ∧ s.link.latch = true
  · obtain ⟨asserted, latched⟩ := halting
    rw [s.endStartUp_of_halting cfg source asserted latched]
    exact started.trans ((s.started cfg source).latchCleared.notice_lineKept _ _ _ _)
  · rwa [s.endStartUp_of_unhalted cfg source halting]

/-- The blocks that start-up does not configure stay as they are. -/
theorem State.endStartUp_rest : let t := s.endStartUp cfg source
    t.ref = s.ref ∧ t.pool = s.pool ∧ t.mem = s.mem ∧ t.browse = s.browse ∧ t.arb = s.arb ∧
      t.storeHalt = s.storeHalt ∧ t.storeOut = s.storeOut ∧ t.lineOut = s.lineOut ∧ t.pending = s.pending := by
  by_cases halting : s.storeHalt = true ∧ s.link.latch = true
  · obtain ⟨asserted, latched⟩ := halting
    simp [s.endStartUp_of_halting cfg source asserted latched, State.latchCleared, State.started, State.configured]
  · simp [s.endStartUp_of_unhalted cfg source halting, State.started, State.configured]

/-! ### The notices of the end of start-up (R149, R174) -/

/-- The entry of START at the end of start-up. -/
def State.startEntry : TxEntry := s.cue.entry cfg.classSwap (.notice .start source.reason engineChannel 0#32)

theorem State.started_queue (empty : s.cue.queue = []) : (s.started cfg source).cue.queue =
    if cfg.mask.getLsbD 0 = true then [s.startEntry cfg source] else [] := by
  have before : (s.configured cfg source).cue.queue = [] := empty
  have queue := (s.configured cfg source).notice_queue .start source.reason engineChannel 0#32 (by simp [before])
    (by simp [before])
  rwa [before, List.nil_append] at queue

/-- The entry of STORE HALTED at the end of start-up. -/
def State.haltEntry : TxEntry :=
  (s.started cfg source).cue.entry cfg.classSwap (.notice .storeHalted 0x01#8 0xFF#8 s.ref.count)

/-- STORE HALTED joins behind START (R167). -/
theorem State.endStartUp_queue_of_halting (empty : s.cue.queue = []) (asserted : s.storeHalt = true)
    (latched : s.link.latch = true) : (s.endStartUp cfg source).cue.queue = (s.started cfg source).cue.queue ++
      if cfg.mask.getLsbD 9 = true then [s.haltEntry cfg source] else [] := by
  have status : (s.started cfg source).latchCleared.status = (s.configured cfg source).status :=
    State.notice_status _ _ _ _ _
  have before : (s.started cfg source).latchCleared.cue.queue =
      if cfg.mask.getLsbD 0 = true then [s.startEntry cfg source] else [] := s.started_queue cfg source empty
  have queue := (s.started cfg source).latchCleared.notice_queue .storeHalted 0x01#8 0xFF#8 s.ref.count
    (by rw [before]; split <;> simp)
    (by
      rw [before, status]
      split
      · exact List.forall_mem_singleton.2 rfl
      · exact fun x mem => absurd mem List.not_mem_nil)
  rw [status] at queue
  rw [s.endStartUp_of_halting cfg source asserted latched]
  exact queue

theorem State.endStartUp_queue_head (empty : s.cue.queue = []) (enabled : cfg.mask.getLsbD 0 = true) :
    (s.endStartUp cfg source).cue.queue.head? = some (s.startEntry cfg source) := by
  have start := s.started_queue cfg source empty
  rw [if_pos enabled] at start
  by_cases halting : s.storeHalt = true ∧ s.link.latch = true
  · obtain ⟨asserted, latched⟩ := halting
    rw [s.endStartUp_queue_of_halting cfg source empty asserted latched, start]
    rfl
  · rw [s.endStartUp_of_unhalted cfg source halting, start]
    rfl

theorem State.endStartUp_queue_last (empty : s.cue.queue = []) (asserted : s.storeHalt = true)
    (latched : s.link.latch = true) (enabled : cfg.mask.getLsbD 9 = true) :
    (s.endStartUp cfg source).cue.queue.getLast? = some (s.haltEntry cfg source) := by
  rw [s.endStartUp_queue_of_halting cfg source empty asserted latched, if_pos enabled, List.getLast?_concat]

/-- A configuration and its source put in force leave what R174 says. -/
theorem State.endStartUp_ended : StartUpEnded cfg source s (s.endStartUp cfg source) where
  status := s.endStartUp_status cfg source
  channels c := by
    rw [s.endStartUp_chan cfg source c, Channel.configure]
    simp [tallyLevel]
  line :=
    have kept := s.endStartUp_lineKept cfg source
    ⟨kept.enabled, kept.activity, kept.onLine, kept.stuckLatch, kept.clash, kept.rxBad⟩
  start empty enabled := by
    rw [s.endStartUp_queue_head cfg source empty enabled]
    rfl
  halt := s.endStartUp_link cfg source
  haltNotice empty asserted latched enabled := by
    rw [s.endStartUp_queue_last cfg source empty asserted latched enabled]
    rfl
  rest := s.endStartUp_rest cfg source

end endStartUp

/-! ### Start-up (R171, R172) -/

theorem State.releaseReset_of_reset {s : State} (straps : Station) (held : s.status.phase = .inReset) :
    s.releaseReset straps = { s with status := { s.status with phase := .startingUp, station := some straps } } :=
  if_pos held

section configuration

variable {s : State} (starting : s.status.phase = .startingUp)
include starting

theorem State.configurationRead_of_good {image : List Byte} (good : imageGood image = true) :
    s.configurationRead image = s.endStartUp (parseImage image) .loaded :=
  (if_pos starting).trans (if_pos good)

theorem State.configurationRead_of_bad {image : List Byte} (bad : imageGood image = false) :
    s.configurationRead image = s.endStartUp builtInConfiguration .defaulted :=
  (if_pos starting).trans (if_neg (Bool.eq_false_iff.1 bad))

theorem State.configurationMissing_of_starting :
    s.configurationMissing = s.endStartUp builtInConfiguration .defaulted := if_pos starting

end configuration

/-- Each of the four tests of an image can fail (R172, R188). -/
theorem imageGood_eq_false (image : List Byte) : imageGood image = false ↔
    field image 0 1 < 33 ∨ 128 < field image 0 1 ∨ image.length < field image 0 1 ∨
      crc16 (image.take (field image 0 1 - 2)) ≠ field image (field image 0 1 - 2) 2 := by
  simp only [imageGood, Bool.and_eq_false_iff, decide_eq_false_iff_not, not_le, or_assoc, ne_eq]

/-! ### QUERY (R179 to R182) -/

/-- A clear flag that is not 0 asks for the counters to be cleared (R179). -/
theorem ite_clear_flag (n : Nat) (s t : State) : (if (n != 0) = true then t else s) = if n = 0 then s else t := by
  by_cases zero : n = 0 <;> simp [zero]

theorem State.queryEngine_eq (s : State) (dest : Station) (n : Nat) : s.queryEngine dest (n != 0) =
    State.transmit (.engineCounters dest s.counterSnapshot) (State.transmit (.engineStatus dest s.engineSnapshot)
      (if n = 0 then s.clearLatches else s.clearLatches.clearEngineCounters)) := by
  simp only [State.queryEngine, ite_clear_flag]

theorem State.queryChannel_eq (s : State) (dest : Station) (n : Nat) (c : Port) : s.queryChannel dest (n != 0) c =
    State.transmit (.channelStatus dest (s.channelSnapshot c)) (if n = 0 then s else s.clearChannelCounters c) := by
  simp only [State.queryChannel, ite_clear_flag]

/-- The selector of an engine STATUS names no channel. -/
theorem selector_of_port {p : List Byte} {c : Port} (port : parsePort p = some c) : field p 0 1 ≠ 0x80 := by
  intro engine
  simp [parsePort, engine] at port

section query

variable {s : State} {m : Heard} {v : BitVec 16} (accepted : s.accepts m = true) (target : m.target = .station v)
  (enough : 2 ≤ m.payload.length)
include accepted target enough

theorem State.hearQuery_of_engine (selector : field m.payload 0 1 = 0x80) :
    s.hearQuery m = s.queryEngine m.sender (field m.payload 1 1 != 0) := by
  simp only [State.hearQuery, if_pos accepted, target, if_neg (Nat.not_lt.2 enough), if_pos selector]

theorem State.hearQuery_of_channel {c : Port} (port : parsePort m.payload = some c) :
    s.hearQuery m = s.queryChannel m.sender (field m.payload 1 1 != 0) c := by
  simp only [State.hearQuery, if_pos accepted, target, if_neg (Nat.not_lt.2 enough), if_neg (selector_of_port port), port]

theorem State.hearQuery_of_none (selector : field m.payload 0 1 ≠ 0x80) (port : parsePort m.payload = none) :
    s.hearQuery m = s.reply m.sender .badPort false 0xFF#8 0x19#8 := by
  simp only [State.hearQuery, if_pos accepted, target, if_neg (Nat.not_lt.2 enough), if_neg selector, port, engineChannel]

end query

/-! ### The statements -/

/-- Settles O5: the straps, the end of start-up by what the configuration read answers (`State.endStartUp_ended`), and the
tests of an image. -/
theorem startUp : Obligations.StartUp := by
  unfold Obligations.StartUp
  refine ⟨fun s straps held => ?_, fun s starting => ⟨fun image good => ?_, fun image bad => ?_, ?_⟩, imageGood_eq_false⟩
  · rw [exec_resetRelease, State.releaseReset_of_reset straps held]
  · exact ⟨_, congrArg Host.Outcome.next (State.configurationRead_of_good starting good), s.endStartUp_ended _ _⟩
  · exact ⟨_, congrArg Host.Outcome.next (State.configurationRead_of_bad starting bad), s.endStartUp_ended _ _⟩
  · exact ⟨_, congrArg Host.Outcome.next (State.configurationMissing_of_starting starting), s.endStartUp_ended _ _⟩

/-- Settles O54: a QUERY by its selector, and the snapshots, which are read before anything is cleared. -/
theorem queryAnswered : Obligations.QueryAnswered := by
  unfold Obligations.QueryAnswered
  refine ⟨fun s m v accepted target enough => ⟨fun selector => ?_, fun c port => ?_, fun selector port => ?_⟩,
    fun s => ⟨rfl, rfl, fun c => rfl⟩⟩
  · rw [exec_query, State.hearQuery_of_engine accepted target enough selector, s.queryEngine_eq]
    rfl
  · rw [exec_query, State.hearQuery_of_channel accepted target enough port, s.queryChannel_eq]
    rfl
  · rw [exec_query, State.hearQuery_of_none accepted target enough selector port]

end Sys2Proof.Machine
end

section
/-! PROOFS. Steps and runs: every command answers a next state and leaves the queue of waiting commands as it is. What writes
only channels, records, tags, jobs and queued messages is `Keeps`; of the other operations the waiting commands alone are
followed (`PendingKept`). -/

namespace Sys2Proof.Machine

/-- An operation leaves the waiting commands as they are. -/
def PendingKept (s t : State) : Prop := t.pending = s.pending

theorem PendingKept.refl (s : State) : PendingKept s s := rfl

theorem PendingKept.trans {s t u : State} (h : PendingKept s t) (k : PendingKept t u) : PendingKept s u := Eq.trans k h

theorem PendingKept.ite {s t u : State} {p : Prop} [Decidable p] (h : PendingKept s t) (k : PendingKept s u) :
    PendingKept s (if p then t else u) := by
  split
  · exact h
  · exact k

theorem Keeps.ite {s t u : State} {p : Prop} [Decidable p] (h : Keeps s t) (k : Keeps s u) :
    Keeps s (if p then t else u) := by
  split
  · exact h
  · exact k

theorem Keeps.pendingKept {s t : State} (h : Keeps s t) : PendingKept s t := h.pending

variable (s : State)

/-! ### The pulses and the tick (R2 to R13) -/

/-- A house tick made once the Reference Unit has been changed (R2 to R8). -/
theorem State.houseTick_pendingKept (tick : TickInput) (r : RefUnit) :
    PendingKept s (State.houseTick tick { s with ref := r }) :=
  (State.houseTick_keeps { s with ref := r } tick).pending

/-- The same tick, followed by its notice of the reference (R6, R8). -/
theorem State.houseTick_notice_pendingKept (tick : TickInput) (r : RefUnit) (cause : Cause) (reason : Byte) :
    PendingKept s ((State.houseTick tick { s with ref := r }).engineNotice cause reason) :=
  (s.houseTick_pendingKept tick r).trans (State.engineNotice_keeps _ cause reason).pendingKept

theorem State.realPulse_pendingKept (time : Nat) (tick : TickInput) : PendingKept s (s.realPulse time tick) := by
  unfold State.realPulse
  split
  · exact s.houseTick_pendingKept tick _
  · exact s.houseTick_pendingKept tick _
  · exact s.houseTick_pendingKept tick _
  · exact .ite (State.engineNotice_pending _ _ _) (s.houseTick_notice_pendingKept tick _ _ _)

theorem State.pulse_pendingKept (time : Nat) (tick : TickInput) : PendingKept s (s.pulse time tick) :=
  .ite (s.realPulse_pendingKept time tick) (.refl s)

theorem State.lossOfReference_pendingKept (time : Nat) (tick : TickInput) : PendingKept s (s.lossOfReference time tick) :=
  .ite (s.houseTick_notice_pendingKept tick _ _ _) (.refl s)

theorem State.flywheelStep_pendingKept (time : Nat) (tick : TickInput) : PendingKept s (s.flywheelStep time tick) :=
  .ite (s.houseTick_pendingKept tick _) (.refl s)

/-! ### Takes (R57 to R73) -/

theorem State.takeHoldOver_keeps (c : Port) : Keeps s (s.takeHoldOver c) := .ite (s.holdOverExpire_keeps c) (.refl s)

theorem State.arm_keeps (payload : List Byte) : Keeps s (s.arm payload).state := by
  unfold State.arm
  dsimp only
  split
  · exact .refl s
  · split
    · exact .refl s
    · split
      · exact .refl s
      · split
        · exact .refl s
        · exact (s.setChan_keeps _ _).trans (State.retally_keeps _ _)

theorem State.closeChannel_keeps (c : Port) : Keeps s (s.closeChannel c) :=
  ((s.onPort_keeps c _).trans (State.onSync_keeps _ c _)).trans (State.onTake_keeps _ c _)

theorem State.disarm_keeps (c : Port) : Keeps s (s.disarm c).state := by
  unfold State.disarm
  split
  · exact (s.closeChannel_keeps c).trans (State.retally_keeps _ c)
  · exact .refl s
  · exact .refl s
  · exact .refl s

theorem State.cueCommand_keeps (q : Cue) (c : Port) : Keeps s (s.cueCommand q c).state := by
  unfold State.cueCommand
  dsimp only
  split
  · exact .refl s
  · split
    · exact .refl s
    · split
      · exact .refl s
      · split
        · exact .refl s
        · exact s.onTake_keeps c fun t => { t with buffer := some q, cueEmpty := false }

theorem State.stopCommand_keeps (c : Port) : Keeps s (s.stopCommand c).state := by
  unfold State.stopCommand
  dsimp only
  split
  · exact (s.onTake_keeps c _).trans (State.retally_keeps _ c)
  · split
    · exact s.onTake_keeps c fun t => { t with buffer := none }
    · exact .refl s
  · exact .refl s
  · exact .refl s

theorem State.cutCommand_keeps (c : Port) : Keeps s (s.cutCommand c).state := by
  unfold State.cutCommand
  dsimp only
  split
  · exact (((s.closeOpen_keeps false c).trans (State.onTake_keeps _ c _)).trans (State.retally_keeps _ c)).trans
      (State.takeEnd_keeps _ _ c)
  · exact .refl s

theorem State.resetRecord_keeps (c : Port) (i : RecIx) : Keeps s (s.resetRecord c i) :=
  .ite ((s.withdraw_keeps i).trans (State.freeRecord_keeps _ i)) (.refl s)

theorem State.resetChannelCommand_keeps (c : Port) : Keeps s (s.resetChannelCommand c).state := by
  unfold State.resetChannelCommand
  dsimp only [State.done]
  exact ((((s.closeChannel_keeps c).trans (State.onPort_keeps _ c _)).trans (State.onTake_keeps _ c _)).trans
    (Keeps.foldl (fun t i => t.resetRecord_keeps c i) allRecs _)).trans (State.retally_keeps _ c)

/-! ### The store link (R143 to R153) -/

theorem State.acknowledge_keeps (tag status : Byte) : Keeps s (s.acknowledge tag status) := by
  unfold State.acknowledge
  split
  · split
    · exact .ite s.countStray_keeps (s.ackTag_keeps _ status)
    · exact s.countStray_keeps
  · exact .refl s

theorem State.haltAssert_pendingKept : PendingKept s s.haltAssert :=
  .ite (State.haltStore_keeps { s with storeHalt := true } reasonLine).pending rfl

theorem State.clearedReceived_keeps : Keeps s s.clearedReceived :=
  .ite (.ite ((State.issue_keeps _).after ⟨rfl, rfl, rfl, rfl, rfl⟩) s.countStray_keeps) (.refl s)

theorem State.resumeCommand_keeps : Keeps s s.resumeCommand.state := by
  unfold State.resumeCommand
  split
  · exact .refl s
  · split
    · exact .refl s
    · split
      · exact .refl s
      · exact (State.issue_keeps _).after ⟨rfl, rfl, rfl, rfl, rfl⟩

theorem State.giveUp_keeps (i : RecIx) : Keeps s (s.giveUp i) :=
  .ite (((s.transmit_keeps _).trans (State.freeRecord_keeps _ i)).trans (State.leaveWriteQueue_keeps _ i)) (.refl s)

theorem State.givenUp_keeps : Keeps s s.givenUp :=
  (Keeps.foldl State.giveUp_keeps _ _).after ⟨rfl, rfl, rfl, rfl, rfl⟩

theorem State.resetStoreCommand_keeps : Keeps s s.resetStoreCommand.state := by
  by_cases clearing : s.link.st = .clearing
  · rw [s.resetStoreCommand_of_clearing clearing]
    exact .refl s
  · rw [s.resetStoreCommand_of_open clearing]
    exact s.givenUp_keeps.trans ⟨rfl, rfl, rfl, rfl, rfl⟩

/-! ### Twin messages (R119 to R135) -/

theorem State.peerReport_keeps (key : Key) (p : Peer) : Keeps s (s.peerReport key p) := by
  unfold State.peerReport
  split
  · exact ⟨rfl, rfl, rfl, rfl, rfl⟩
  · exact .ite (.refl s) (.ite (s.onRec_keeps _ _) ⟨rfl, rfl, rfl, rfl, rfl⟩)

theorem State.hearReport_keeps (m : Heard) : Keeps s (s.hearReport m) := by
  unfold State.hearReport
  split
  · exact s.peerReport_keeps _ _
  · exact .refl s

theorem State.storedFor_keeps (key : Key) : Keeps s (s.storedFor key) := by
  unfold State.storedFor
  split
  · exact .refl s
  · split
    · exact s.onRec_keeps _ _
    · exact s.onRec_keeps _ _
    · exact s.freeRecord_keeps _
    · exact s.freeRecord_keeps _
    · exact (s.leaveWriteQueue_keeps _).trans (State.freeRecord_keeps _ _)
    · exact .refl s
    · exact .refl s
    · exact .refl s

theorem State.hearStored_keeps (m : Heard) : Keeps s (s.hearStored m) := by
  unfold State.hearStored
  split
  · exact s.storedFor_keeps _
  · exact .refl s

theorem State.takeStored_keeps (m : HeardStored) : Keeps s (s.takeStored m) :=
  .ite ((s.hearStored_keeps m.heard).trans (State.issue_keeps _)) (s.hearStored_keeps m.heard)

theorem State.unstoredFor_keeps (key : Key) (station : Station) : Keeps s (s.unstoredFor key station) := by
  unfold State.unstoredFor
  split
  · exact .refl s
  · exact .ite ((s.onRec_keeps _ _).trans (State.takeOver_keeps _ _)) ((s.onRec_keeps _ _).trans (State.onRec_keeps _ _ _))

theorem State.hearUnstored_keeps (m : Heard) : Keeps s (s.hearUnstored m) := by
  unfold State.hearUnstored
  split
  · exact s.unstoredFor_keeps _ _
  · exact .refl s

theorem State.takeoverFor_keeps (key : Key) (station : Station) : Keeps s (s.takeoverFor key station) := by
  unfold State.takeoverFor
  split
  · exact .refl s
  · exact s.onRec_keeps _ _

theorem State.hearTakeover_keeps (m : Heard) : Keeps s (s.hearTakeover m) := by
  unfold State.hearTakeover
  split
  · exact s.takeoverFor_keeps _ _
  · exact .refl s

/-! ### Messages heard (R175 to R182) -/

/-- A command that is answered, one that acts unanswered and one that is ignored (R175, R176). -/
theorem State.command_pendingKept (kind : Byte) (need : Nat) (viaFeed viaAll : Bool) (channel : Byte)
    (act : State → Taken) (m : Heard) (effect : PendingKept s (act s).state) :
    PendingKept s (s.command kind need viaFeed viaAll channel act m) := by
  unfold State.command
  split
  · split
    · exact .ite (s.reply_keeps _ _ _ _ _).pendingKept (effect.trans (State.reply_keeps _ _ _ _ _ _).pendingKept)
    · exact .ite effect (.refl s)
    · exact .ite effect (.refl s)
    · exact .refl s
  · exact .refl s

theorem State.onChannel_keeps (c : Option Port) (act : Port → State → Taken) (effect : ∀ c, Keeps s (act c s).state) :
    Keeps s (s.onChannel c act).state := by
  cases c with
  | none => exact .refl s
  | some c => exact effect c

theorem State.hearArm_pendingKept (m : Heard) : PendingKept s (s.hearArm m) :=
  s.command_pendingKept _ _ _ _ _ _ m (s.arm_keeps m.payload).pendingKept

theorem State.hearDisarm_pendingKept (m : Heard) : PendingKept s (s.hearDisarm m) :=
  s.command_pendingKept _ _ _ _ _ _ m (s.onChannel_keeps _ _ s.disarm_keeps).pendingKept

theorem State.hearCue_pendingKept (m : Heard) : PendingKept s (s.hearCue m) :=
  s.command_pendingKept _ _ _ _ _ _ m (s.onChannel_keeps _ _ (s.cueCommand_keeps _)).pendingKept

theorem State.hearStop_pendingKept (m : Heard) : PendingKept s (s.hearStop m) :=
  s.command_pendingKept _ _ _ _ _ _ m (s.onChannel_keeps _ _ s.stopCommand_keeps).pendingKept

theorem State.hearCut_pendingKept (m : Heard) : PendingKept s (s.hearCut m) :=
  s.command_pendingKept _ _ _ _ _ _ m (s.onChannel_keeps _ _ s.cutCommand_keeps).pendingKept

theorem State.hearResetChannel_pendingKept (m : Heard) : PendingKept s (s.hearResetChannel m) :=
  s.command_pendingKept _ _ _ _ _ _ m (s.onChannel_keeps _ _ s.resetChannelCommand_keeps).pendingKept

theorem State.hearPreset_pendingKept (m : Heard) : PendingKept s (s.hearPreset m) :=
  s.command_pendingKept _ _ _ _ _ _ m rfl

theorem State.hearResumeStore_pendingKept (m : Heard) : PendingKept s (s.hearResumeStore m) :=
  s.command_pendingKept _ _ _ _ _ _ m s.resumeCommand_keeps.pendingKept

theorem State.hearResetStore_pendingKept (m : Heard) : PendingKept s (s.hearResetStore m) :=
  s.command_pendingKept _ _ _ _ _ _ m s.resetStoreCommand_keeps.pendingKept

theorem State.queryEngine_pendingKept (dest : Station) (clear : Bool) : PendingKept s (s.queryEngine dest clear) := by
  cases clear <;> rfl

theorem State.queryChannel_pendingKept (dest : Station) (clear : Bool) (c : Port) :
    PendingKept s (s.queryChannel dest clear c) := by
  cases clear <;> rfl

theorem State.hearQuery_pendingKept (m : Heard) : PendingKept s (s.hearQuery m) := by
  unfold State.hearQuery
  split
  · split
    · refine .ite (s.reply_keeps _ _ _ _ _).pendingKept (.ite (s.queryEngine_pendingKept _ _) ?_)
      split
      · exact s.queryChannel_pendingKept _ _ _
      · exact (s.reply_keeps _ _ _ _ _).pendingKept
    · exact .refl s
  · exact .refl s

theorem State.hearUnknown_keeps (kind : Byte) (m : Heard) : Keeps s (s.hearUnknown kind m) := by
  unfold State.hearUnknown
  split
  · split
    · exact s.reply_keeps _ _ _ _ _
    · exact .refl s
  · exact .refl s

/-- A message leaves the waiting commands as they are in the block that owns its kind (R165, R177). -/
theorem State.takeMessage_pendingKept (kind : Byte) (m : Heard) : PendingKept s (s.takeMessage kind m) := by
  unfold State.takeMessage
  exact .ite (s.hearArm_pendingKept m) <| .ite (s.hearDisarm_pendingKept m) <| .ite (s.hearCue_pendingKept m) <|
    .ite (s.hearStop_pendingKept m) <| .ite (s.hearCut_pendingKept m) <| .ite (s.hearResetChannel_pendingKept m) <|
    .ite (s.hearPreset_pendingKept m) <| .ite (s.hearResumeStore_pendingKept m) <|
    .ite (s.hearResetStore_pendingKept m) <| .ite (s.hearQuery_pendingKept m) <| .ite (.refl s) <| .ite (.refl s) <|
    .ite (.refl s) <| .ite (s.hearReport_keeps m).pendingKept <| .ite (s.hearStored_keeps m).pendingKept <|
    .ite (s.hearUnstored_keeps m).pendingKept <| .ite (s.hearTakeover_keeps m).pendingKept
      (s.hearUnknown_keeps kind m).pendingKept

/-! ### The cue line (R159 to R168) -/

theorem State.waitIdle_keeps (n : Nat) : Keeps s (s.waitIdle n) := ⟨rfl, rfl, rfl, rfl, rfl⟩

theorem State.countRxBad_keeps : Keeps s s.countRxBad := ⟨rfl, rfl, rfl, rfl, rfl⟩

theorem State.idleSend_keeps (gap : Nat) : Keeps s (s.idleSend gap) := by
  unfold State.idleSend
  split
  · refine .ite (.ite ?_ (s.waitIdle_keeps _)) (.refl s)
    split
    · exact ⟨rfl, rfl, rfl, rfl, rfl⟩
    · exact s.waitIdle_keeps _
  · exact .refl s
  · exact .refl s

theorem State.removeSent_keeps : Keeps s s.removeSent := by
  unfold State.removeSent
  split
  · exact ⟨rfl, rfl, rfl, rfl, rfl⟩
  · exact .refl s

theorem State.abandonMessage_keeps : Keeps s s.abandonMessage := s.removeSent_keeps.trans ⟨rfl, rfl, rfl, rfl, rfl⟩

theorem State.loseArbitration_keeps : Keeps s s.loseArbitration := .ite ⟨rfl, rfl, rfl, rfl, rfl⟩ (.refl s)

theorem State.takeClash_keeps : Keeps s s.takeClash :=
  .ite (s.abandonMessage_keeps.trans (State.waitIdle_keeps _ 0)) (.refl s)

/-- A message sent adds its frame to what was sent on the cue line, so that it is not `Keeps` (R162). -/
theorem State.takeSent_pendingKept : PendingKept s s.takeSent :=
  .ite ((State.removeSent_keeps _).trans (State.waitIdle_keeps _ endBits)).pending (.refl s)

theorem State.takeStuck_keeps (inArbitration : Bool) : Keeps s (s.takeStuck inArbitration) := by
  have latched : Keeps s { s with cue := { s.cue with stuckLatch := true } } := ⟨rfl, rfl, rfl, rfl, rfl⟩
  refine .ite ((State.waitIdle_keeps _ 0).after (latched.trans ?_)) (.refl s)
  split
  · exact .refl _
  · exact State.countRxBad_keeps _
  · exact .ite (State.countRxBad_keeps _) (State.abandonMessage_keeps _)

theorem State.hearFrame_pendingKept (bits : List Bool) : PendingKept s (s.hearFrame bits) := by
  unfold State.hearFrame
  split
  · exact (s.countRxBad_keeps.trans (State.waitIdle_keeps _ _)).pendingKept
  · exact (s.waitIdle_keeps _).pendingKept.trans (State.takeMessage_pendingKept _ _ _)

theorem State.lineFrame_pendingKept (gap : Nat) (bits : List Bool) : PendingKept s (s.lineFrame gap bits) := by
  have waited (n : Nat) : PendingKept s (s.waitIdle n) := (s.waitIdle_keeps n).pendingKept
  refine .ite ?_ (.refl s)
  split
  · exact .refl s
  · exact s.hearFrame_pendingKept _
  · exact .ite (waited _) (.ite (s.hearFrame_pendingKept _) (waited _))

/-! ### Start-up (R171 to R174) -/

theorem State.endStartUp_pendingKept (cfg : Configuration) (source : Source) : PendingKept s (s.endStartUp cfg source) :=
  by
  obtain ⟨-, -, -, -, -, -, -, -, pending⟩ := s.endStartUp_rest cfg source
  exact pending

/-! ### What a command keeps, and what a step is -/

/-- Every command answers a next state, and leaves the waiting commands as they are. -/
theorem exec_pendingKept (i : Instr) : ∃ t, exec i s = .next t ∧ PendingKept s t := by
  cases i with
  | powerOnReset => exact ⟨_, rfl, rfl⟩
  | configurationReadComplete image =>
    exact ⟨_, rfl, .ite (.ite (s.endStartUp_pendingKept _ _) (s.endStartUp_pendingKept _ _)) (.refl s)⟩
  | configurationReadTimeout => exact ⟨_, rfl, .ite (s.endStartUp_pendingKept _ _) (.refl s)⟩
  | resetRelease straps => exact ⟨_, rfl, .ite rfl (.refl s)⟩
  | referencePulse time tick => exact ⟨_, rfl, s.pulse_pendingKept time tick⟩
  | lossDeadlineExpiry time tick => exact ⟨_, rfl, s.lossOfReference_pendingKept time tick⟩
  | flywheelTick time tick => exact ⟨_, rfl, s.flywheelStep_pendingKept time tick⟩
  | preset m => exact ⟨_, rfl, s.hearPreset_pendingKept m⟩
  | headerJudged port bytes => exact ⟨_, rfl, (s.hearLane_keeps port bytes).pendingKept⟩
  | frameComplete port bytes => exact ⟨_, rfl, (s.hearLane_keeps port bytes).pendingKept⟩
  | frameWaitingTimerExpiry port => exact ⟨_, rfl, (s.waitingExpiry_keeps port).pendingKept⟩
  | arm m => exact ⟨_, rfl, s.hearArm_pendingKept m⟩
  | disarm m => exact ⟨_, rfl, s.hearDisarm_pendingKept m⟩
  | cue m => exact ⟨_, rfl, s.hearCue_pendingKept m⟩
  | stop m => exact ⟨_, rfl, s.hearStop_pendingKept m⟩
  | cut m => exact ⟨_, rfl, s.hearCut_pendingKept m⟩
  | resetChannel m => exact ⟨_, rfl, s.hearResetChannel_pendingKept m⟩
  | holdOverExpiry port => exact ⟨_, rfl, (s.takeHoldOver_keeps port).pendingKept⟩
  | coderCompletion coded => exact ⟨_, rfl, (s.complete_keeps coded).pendingKept⟩
  | drainTimerExpiry record => exact ⟨_, rfl, (s.takeDrain_keeps record).pendingKept⟩
  | reportHeard m => exact ⟨_, rfl, (s.hearReport_keeps m).pendingKept⟩
  | reportWindowExpiry record => exact ⟨_, rfl, (s.windowExpiry_keeps record).pendingKept⟩
  | storedHeard m => exact ⟨_, rfl, (s.takeStored_keeps m).pendingKept⟩
  | unstoredHeard m => exact ⟨_, rfl, (s.hearUnstored_keeps m).pendingKept⟩
  | takeoverHeard m => exact ⟨_, rfl, (s.hearTakeover_keeps m).pendingKept⟩
  | commitTimerExpiry record => exact ⟨_, rfl, (s.commitExpiry_keeps record).pendingKept⟩
  | acknowledgement tag status => exact ⟨_, rfl, (s.acknowledge_keeps tag status).pendingKept⟩
  | storeWaitingTimerExpiry tag => exact ⟨_, rfl, (s.storeExpiry_keeps tag).pendingKept⟩
  | storeHaltAssert => exact ⟨_, rfl, s.haltAssert_pendingKept⟩
  | storeHaltRelease => exact ⟨_, rfl, rfl⟩
  | resumeStore m => exact ⟨_, rfl, s.hearResumeStore_pendingKept m⟩
  | resetStore m => exact ⟨_, rfl, s.hearResetStore_pendingKept m⟩
  | cleared => exact ⟨_, rfl, s.clearedReceived_keeps.pendingKept⟩
  | clearTimerExpiry => exact ⟨_, rfl, s.clearExpiry_keeps.pendingKept⟩
  | storeLinkOtherType kind => exact ⟨_, rfl, .refl s⟩
  | lineIdleSend gap => exact ⟨_, rfl, (s.idleSend_keeps gap).pendingKept⟩
  | lostArbitration => exact ⟨_, rfl, s.loseArbitration_keeps.pendingKept⟩
  | clash => exact ⟨_, rfl, s.takeClash_keeps.pendingKept⟩
  | messageSent => exact ⟨_, rfl, s.takeSent_pendingKept⟩
  | lineStuck inArbitration => exact ⟨_, rfl, (s.takeStuck_keeps inArbitration).pendingKept⟩
  | cueLineFrame gap bits => exact ⟨_, rfl, s.lineFrame_pendingKept gap bits⟩
  | unknownKind kind m => exact ⟨_, rfl, s.takeMessage_pendingKept kind m⟩
  | query m => exact ⟨_, rfl, s.hearQuery_pendingKept m⟩
  | syncMarkerFound port bytes => exact ⟨_, rfl, (s.hearLane_keeps port _).pendingKept⟩

variable {s}

theorem step_of_idle (idle : s.pending = []) : step s = .next s := by rw [step, idle]

theorem step_of_waiting {c : Instr} {rest : List Instr} (waiting : s.pending = c :: rest) :
    step s = exec c { s with pending := rest } := by rw [step, waiting]

/-- A step answers a next state, whether it runs a command or idles. -/
theorem step_answers (s : State) : ∃ t, step s = .next t := by
  cases waiting : s.pending with
  | nil => exact ⟨s, step_of_idle waiting⟩
  | cons c rest =>
    obtain ⟨t, next, -⟩ := exec_pendingKept { s with pending := rest } c
    exact ⟨t, (step_of_waiting waiting).trans next⟩

/-- A run whose first step answers a next state goes on from there. -/
theorem run_succ_of_step {M : Host.Core} {x y : M.State} (k : Nat) (first : M.step x = .next y) :
    M.run (k + 1) x = M.run k y := by
  rw [Host.Core.run, first]

/-! ### The statements -/

/-- Settles O3, by induction on the number of steps: each answers a next state (`step_answers`). -/
theorem everyRunGoesOn : Obligations.EveryRunGoesOn := by
  intro s k
  induction k generalizing s with
  | zero => exact ⟨s, rfl⟩
  | succ k ih =>
    obtain ⟨t, first⟩ := step_answers s
    obtain ⟨u, rest⟩ := ih t
    exact ⟨u, (run_succ_of_step (M := Sys2Proof.core) k first).trans rest⟩

/-- Settles O1 (`step_of_waiting`). -/
theorem stepTakesFrontCommand : Obligations.StepTakesFrontCommand := fun _ _ _ => step_of_waiting

/-- Settles O2: the state that a command answers is the one of `exec_pendingKept`. -/
theorem queueKeptByCommands : Obligations.QueueKeptByCommands := by
  refine ⟨fun s => step_of_idle, fun c s t answered => ?_⟩
  obtain ⟨u, next, kept⟩ := exec_pendingKept s c
  cases next.symm.trans answered
  exact kept

end Sys2Proof.Machine
end
